-- ==== Sys2Proof/Word.lean ====
section
/-! DEFINITION. The words of HTS221-CAL: the widths the spec gives its fields, signals and operands.
`sint(v)` of spec/00_scope.md R6 is `v.toInt`, `uint(v)` is `v.toNat`. -/

namespace Sys2Proof

/-- One sensor register, one command word, one bus data byte (R54, R72). -/
abbrev Byte := BitVec 8

/-- A raw output, a calibration ADC point or a stored temperature code (R27, R30 to R32). -/
abbrev Half := BitVec 16

/-- A calibration code at the Interpolator port (R86). -/
abbrev Code := BitVec 10

/-- A response data word, Q24.8 for a reading (R80, R160). -/
abbrev Word := BitVec 32

end Sys2Proof
end

