-- ==== Sys2Proof/Syntax.lean ====
section
/-! DEFINITION. The instructions of HTS221-CAL: one constructor for each row of spec/opcode_table.json. -/

namespace Sys2Proof

/-- The three commands of format CMD8 (R73) and the two Interpolator operations of format IPOP1 (R87).
A command has no operands (R72); an operation has the five operand signals of the Interpolator port (R86). -/
inductive Instr where
  /-- BEGIN (R100). -/
  | begin
  /-- READ_TEMP (R130). -/
  | readTemp
  /-- READ_HUM (R131). -/
  | readHum
  /-- INTERP_TEMP `ip_raw, ip_x0, ip_x1, ip_y0, ip_y1` (R162). -/
  | interpTemp (raw x0 x1 : Half) (y0 y1 : Code)
  /-- INTERP_HUM `ip_raw, ip_x0, ip_x1, ip_y0, ip_y1` (R163). -/
  | interpHum (raw x0 x1 : Half) (y0 y1 : Code)
  deriving DecidableEq, Repr

end Sys2Proof
end

