-- ==== Sys2Proof/WellFormed.lean ====
section
/-! DEFINITION. Which terms are well formed: instructions, and the lines of the assembler syntax of R88, from which
instructions are written. The range checks stand on the lines, because their operands are integers. -/

namespace Sys2Proof

/-- Every term of `Instr` is well formed: its operands have the port's widths by type, "Both values of the field are
legal" (R87), and no operand value is reserved (R161, R171). -/
def Instr.wf : Instr → Bool
  | .begin => true
  | .readTemp => true
  | .readHum => true
  | .interpTemp _ _ _ _ _ => true
  | .interpHum _ _ _ _ _ => true

/-- One line of a program in the assembler syntax (R88), less its comment. Operands are integers, as R88 writes them. -/
inductive AsmLine where
  /-- `BEGIN` -/
  | begin
  /-- `READ_TEMP` -/
  | readTemp
  /-- `READ_HUM` -/
  | readHum
  /-- `.cmd 0xNN`, the raw command word -/
  | cmd (w : Nat)
  /-- `INTERP_TEMP raw, x0, x1, y0, y1` -/
  | interpTemp (raw x0 x1 y0 y1 : Int)
  /-- `INTERP_HUM raw, x0, x1, y0, y1` -/
  | interpHum (raw x0 x1 y0 y1 : Int)
  deriving DecidableEq, Repr

/-- An ADC operand: 16 bits two's complement (R86, R161). -/
def adcInRange (v : Int) : Bool := decide (-32768 ≤ v ∧ v ≤ 32767)

/-- A calibration code operand: 10 bits unsigned (R86, R161). -/
def codeInRange (v : Int) : Bool := decide (0 ≤ v ∧ v ≤ 1023)

/-- A line is well formed when its operands fit the signals they are driven on (R72, R86; log entry 9). -/
def AsmLine.wf : AsmLine → Bool
  | .begin => true
  | .readTemp => true
  | .readHum => true
  | .cmd w => decide (w < 256)
  | .interpTemp raw x0 x1 y0 y1 =>
    adcInRange raw && adcInRange x0 && adcInRange x1 && codeInRange y0 && codeInRange y1
  | .interpHum raw x0 x1 y0 y1 =>
    adcInRange raw && adcInRange x0 && adcInRange x1 && codeInRange y0 && codeInRange y1

end Sys2Proof
end

