-- ==== Sys2Proof/Decode.lean ====
section
/-! DEFINITION. The decoder and the encoder, from the encoding tables of spec/30_encoding.md: command words (R72 to
R76) and the Interpolator port (R86, R87), and the assembler of R88. -/

namespace Sys2Proof

/-- Why a word is no instruction: R74's only reason. -/
inductive DecodeError where
  /-- An illegal command word (R74). The Sequencer answers it with ILLEGAL_CMD (R203). -/
  | illegalCommand (w : Byte)
  deriving DecidableEq, Repr

/-- What is presented on one of the two ports that take instructions: a command word on the Host port (R71), or the
six input signals of the Interpolator port (R86) as one bundle. The bundle's order, `ip_op` in bit 0 and then the
signals in R86's order, is the model's (log entry 8). -/
inductive PortWord where
  /-- Format CMD8. -/
  | cmd8 (w : Byte)
  /-- Format IPOP1: `ip_y1 ++ ip_y0 ++ ip_x1 ++ ip_x0 ++ ip_raw ++ ip_op`. -/
  | ipop1 (p : BitVec 69)
  deriving DecidableEq, Repr

/-- The decoder of command words, total on the 256 words (R72, R73, R76). -/
def decodeCmd (w : Byte) : Except DecodeError Instr :=
  let rsv := w.extractLsb' 4 4
  let op := w.extractLsb' 0 4
  if rsv ≠ 0 then .error (.illegalCommand w)
  else if op = 1 then .ok .begin
  else if op = 2 then .ok .readTemp
  else if op = 3 then .ok .readHum
  else .error (.illegalCommand w)

/-- The decoder of the Interpolator port: both values of `ip_op` are legal (R87). -/
def decodeIp (p : BitVec 69) : Instr :=
  let raw := p.extractLsb' 1 16
  let x0 := p.extractLsb' 17 16
  let x1 := p.extractLsb' 33 16
  let y0 := p.extractLsb' 49 10
  let y1 := p.extractLsb' 59 10
  if p.extractLsb' 0 1 = 0 then .interpTemp raw x0 x1 y0 y1 else .interpHum raw x0 x1 y0 y1

/-- The decoder of both ports. -/
def decode : PortWord → Except DecodeError Instr
  | .cmd8 w => decodeCmd w
  | .ipop1 p => .ok (decodeIp p)

/-- The bundle of the Interpolator port's input signals. -/
def ipBundle (op : BitVec 1) (raw x0 x1 : Half) (y0 y1 : Code) : BitVec 69 :=
  y1 ++ y0 ++ x1 ++ x0 ++ raw ++ op

/-- The encoder: R73's word for a command, `ip_op` and the operand signals for an operation (R86, R87). -/
def encode : Instr → PortWord
  | .begin => .cmd8 0x01
  | .readTemp => .cmd8 0x02
  | .readHum => .cmd8 0x03
  | .interpTemp raw x0 x1 y0 y1 => .ipop1 (ipBundle 0 raw x0 x1 y0 y1)
  | .interpHum raw x0 x1 y0 y1 => .ipop1 (ipBundle 1 raw x0 x1 y0 y1)

/-- The word on its port that a well-formed assembler line stands for (R88, R89); `none` for an ill-formed one. -/
def assemble (l : AsmLine) : Option PortWord :=
  if l.wf then
    match l with
    | .begin => some (encode .begin)
    | .readTemp => some (encode .readTemp)
    | .readHum => some (encode .readHum)
    | .cmd w => some (.cmd8 (BitVec.ofNat 8 w))
    | .interpTemp raw x0 x1 y0 y1 =>
      some (encode (.interpTemp (.ofInt 16 raw) (.ofInt 16 x0) (.ofInt 16 x1) (.ofInt 10 y0) (.ofInt 10 y1)))
    | .interpHum raw x0 x1 y0 y1 =>
      some (encode (.interpHum (.ofInt 16 raw) (.ofInt 16 x0) (.ofInt 16 x1) (.ofInt 10 y0) (.ofInt 10 y1)))
  else none

/-- On which port a word of the opcode table stands. A word of 8 bits is a command word, but for 0x00: no command
(R74), and the table's INTERP_TEMP row when that one-bit row is counted in a whole byte. A word of another width is
an `ip_op` bit and what follows it on the Interpolator port, operands not given being 0 (log entry 8). -/
def tableWord (nbits w : Nat) : PortWord :=
  if nbits = 8 ∧ w ≠ 0 then .cmd8 (BitVec.ofNat 8 w) else .ipop1 (BitVec.ofNat 69 w)

/-- The instruction the decoder reads from an opcode-table word `w` of `nbits` bits. -/
def decodeTableWord (nbits w : Nat) : Option Instr :=
  if w < 2 ^ nbits then
    match decode (tableWord nbits w) with
    | .ok i => some i
    | .error _ => none
  else none

end Sys2Proof
end

