-- ==== Sys2Proof/Config.lean ====
section
/-! DEFINITION. What is fixed for one HTS221-CAL, and what reaches it from outside:
the construction parameters (R5), the input pins of one step (R71, R81, R230), and the free inputs. -/

namespace Sys2Proof

/-- The input signals at one step: reset (R230), the Host port's inputs (R71), the Bus port's inputs (R81). -/
structure Pins where
  rst         : Bool   -- `rst`, active high
  cmdValid    : Bool   -- `cmd_valid`
  cmd         : Byte   -- `cmd`
  busRspValid : Bool   -- `bus_rsp_valid`
  busRspRdata : Byte   -- `bus_rsp_rdata`
  busRspAck   : Bool   -- `bus_rsp_ack`
  deriving DecidableEq, Repr, Inhabited

/-- The construction parameters that a step reads (R5): fixed for the life of the machine, and no state of it (R21). -/
structure Params where
  devAddr     : BitVec 7    -- `DEV_ADDR`
  ctrlReg1Val : Byte        -- `CTRL_REG1_VAL`
  avConfVal   : Byte        -- `AV_CONF_VAL`
  pollLimit   : BitVec 32   -- `POLL_LIMIT`, 0 for no bound
  deriving DecidableEq, Repr

/-- The defaults R5 gives, "when a claim names none". The two register values are the spec's own general knowledge
(spec/93_implementation_defined.md G1, G2; log entry 6). -/
def Params.default : Params :=
  { devAddr := 0x5F, ctrlReg1Val := 0x85, avConfVal := 0x1B, pollLimit := 0 }

/-- `WHO_AM_I_VALUE`, fixed and no parameter (R5, R102). -/
def Config.whoAmI : Byte := 0xBC

/-- The inputs at the steps for which the state lists none: free values, one for each step. What the Host presents,
when reset is raised and what the transport answers are inputs "under no law beyond its type" (R10; U3, U4, U9 to U11;
log entry 1). -/
opaque Config.freePins : Nat → Pins

/-- One less than `INTERP_LATENCY`, which R5 leaves OPEN. -/
opaque Config.interpLatencyLessOne : Nat

/-- `INTERP_LATENCY`, in clock cycles, at least 1 (R5, R245). It spaces steps in time only: no rule of the spec and
no definition of the model depends on it (log entry 7). -/
def Config.interpLatency : Nat := Config.interpLatencyLessOne + 1

end Sys2Proof
end

