-- ==== Sys2Proof/Machine/State.lean ====
section
/-! DEFINITION. The state of HTS221-CAL as plain data: every field of spec/10_state.md R20, the model's own fields
beside them, the state after reset (R230), and the reasons a step can stop. -/

namespace Sys2Proof.Machine

open Sys2Proof

/-- The Sequencer's state `st` (R22), 4 bits: the nine states of R83, and the seven encodings 0x9 to 0xF it leaves
unused (R243); `unused k` is the encoding 0x9 + k. -/
inductive St where
  | idle | initId | initCtrl | initAvg | initCal | rdPoll | rdOutL | rdOutH | rdConv
  | unused (k : Fin 7)
  deriving DecidableEq, Repr

/-- The channel of a reading (`chan`, R25) and the operation of the Interpolator (`ip_op`, R87): 0 or 1. -/
inductive Channel where
  /-- `chan` = 0, INTERP_TEMP. -/
  | temp
  /-- `chan` = 1, INTERP_HUM. -/
  | hum
  deriving DecidableEq, Repr

/-- The CalibrationSet, the block's only register file (R28 to R32). -/
structure CalibrationSet where
  H0_rH_x2   : Byte
  H1_rH_x2   : Byte
  T0_degC_x8 : Half
  T1_degC_x8 : Half
  H0_T0_OUT  : Half
  H1_T0_OUT  : Half
  T0_OUT     : Half
  T1_OUT     : Half
  deriving DecidableEq, Repr

/-- The CalibrationSet after reset: 0 in every bit (R230). -/
def CalibrationSet.zero : CalibrationSet :=
  { H0_rH_x2 := 0, H1_rH_x2 := 0, T0_degC_x8 := 0, T1_degC_x8 := 0,
    H0_T0_OUT := 0, H1_T0_OUT := 0, T0_OUT := 0, T1_OUT := 0 }

/-- The output signals of the Interpolator port (R86). -/
structure IpOut where
  result : Word   -- `ip_result`
  dz     : Bool   -- `ip_dz`
  deriving DecidableEq, Repr

/-- The state. The first group is R20's record. The second is the model's own: the Interpolator port's outputs as
last driven (log entry 3), the construction parameters, which no step changes (R5, R21; log entry 2), and the inputs
to come: those listed, one entry a step, and then the free ones, by index (R10, R21; log entry 1). -/
structure State where
  initDone  : Bool          -- `init_done` (R23)
  st        : St            -- `st` (R22)
  calIdx    : Fin 13        -- `cal_idx`, 0 to 12 only (R24)
  chan      : Channel       -- `chan` (R25)
  pollCnt   : BitVec 32     -- `poll_cnt` (R26)
  rawLo     : Byte          -- `raw_lo` (R27)
  raw       : Half          -- `raw` (R27)
  cal       : CalibrationSet
  rspValid  : Bool          -- `rsp_valid` (R38)
  rspStatus : BitVec 3      -- `rsp_status` (R36)
  rspData   : Word          -- `rsp_data` (R37)
  fault     : Bool          -- `fault` (R39)
  ip        : IpOut
  params    : Params
  env       : List Pins
  clock     : Nat
  deriving DecidableEq, Repr

/-- No step faults: HTS221-CAL reports every error as a response and goes on (R200), and a hang is a run that does
not end (R11). The type has no constructor. -/
inductive Fault where
  deriving DecidableEq, Repr

/-- Reasons a step is refused. -/
inductive Refusal where
  /-- The instruction has no meaning in the model yet: raised by an arm of `exec` only. Safe. No arm raises it. -/
  | notModelled (mnemonic : String)
  deriving DecidableEq, Repr

/-- The machine right after reset, every field at R230's value; the parameters at R5's defaults; no input listed. -/
def State.reset : State :=
  { initDone := false, st := .idle, calIdx := 0, chan := .temp, pollCnt := 0, rawLo := 0, raw := 0,
    cal := .zero, rspValid := false, rspStatus := 0, rspData := 0, fault := false,
    ip := { result := 0, dz := false }, params := .default, env := [], clock := 0 }

end Sys2Proof.Machine
end

