-- ==== Sys2Proof/Machine/Operands.lean ====
section
/-! DEFINITION. How bytes become operands: the assembly of 16-bit values and temperature codes
(spec/20_memory.md R57 to R59), the calibration read table (spec/30_encoding.md R85), and the operands the Interpolator
reads (R138, R161). -/

namespace Sys2Proof.Machine

open Sys2Proof

/-! ## Encodings of the small fields -/

/-- The 4-bit encoding of `st` (R83, R243). -/
def St.code : St → BitVec 4
  | .idle => 0x0
  | .initId => 0x1
  | .initCtrl => 0x2
  | .initAvg => 0x3
  | .initCal => 0x4
  | .rdPoll => 0x5
  | .rdOutL => 0x6
  | .rdOutH => 0x7
  | .rdConv => 0x8
  | .unused k => BitVec.ofNat 4 (9 + k.val)

/-- The bit that `chan` and `ip_op` hold (R25, R87). -/
def Channel.bit : Channel → Bool
  | .temp => false
  | .hum => true

/-- `chan <- cmd[0]` (R132): the channel a bit names. -/
def Channel.ofBit (b : Bool) : Channel := if b then .hum else .temp

/-! ## Assembly of 16-bit values -/

/-- A 16-bit value from a register pair: `hi ++ lo` (R57). -/
def assembleHalf (hi lo : Byte) : Half := hi ++ lo

/-- `x[7:0] <- b` on a 16-bit field (R85). -/
def setLow (x : Half) (b : Byte) : Half := assembleHalf (x.extractLsb' 8 8) b

/-- `x[15:8] <- b` on a 16-bit field (R85). -/
def setHigh (x : Half) (b : Byte) : Half := assembleHalf b (x.extractLsb' 0 8)

/-- `CAL_ADDR[i]`: the register read at `cal_idx` = i (R85). -/
def calAddr (i : Fin 13) : Byte :=
  match i with
  | 0 => 0x30
  | 1 => 0x31
  | 2 => 0x32
  | 3 => 0x33
  | 4 => 0x35
  | 5 => 0x36
  | 6 => 0x37
  | 7 => 0x3A
  | 8 => 0x3B
  | 9 => 0x3C
  | 10 => 0x3D
  | 11 => 0x3E
  | 12 => 0x3F

/-- `CAPTURE[i](b)`: what the answer `b` of the i-th calibration read writes (R85, R59). -/
def capture (i : Fin 13) (b : Byte) (c : CalibrationSet) : CalibrationSet :=
  match i with
  | 0 => { c with H0_rH_x2 := b }
  | 1 => { c with H1_rH_x2 := b }
  | 2 => { c with T0_degC_x8 := setLow c.T0_degC_x8 b }
  | 3 => { c with T1_degC_x8 := setLow c.T1_degC_x8 b }
  | 4 => { c with T0_degC_x8 := setHigh c.T0_degC_x8 ((b.extractLsb' 0 2).setWidth 8)
                  T1_degC_x8 := setHigh c.T1_degC_x8 ((b.extractLsb' 2 2).setWidth 8) }
  | 5 => { c with H0_T0_OUT := setLow c.H0_T0_OUT b }
  | 6 => { c with H0_T0_OUT := setHigh c.H0_T0_OUT b }
  | 7 => { c with H1_T0_OUT := setLow c.H1_T0_OUT b }
  | 8 => { c with H1_T0_OUT := setHigh c.H1_T0_OUT b }
  | 9 => { c with T0_OUT := setLow c.T0_OUT b }
  | 10 => { c with T0_OUT := setHigh c.T0_OUT b }
  | 11 => { c with T1_OUT := setLow c.T1_OUT b }
  | 12 => { c with T1_OUT := setHigh c.T1_OUT b }

/-! ## Operands of the Interpolator -/

/-- `ip_x0` for a channel (R138). -/
def CalibrationSet.x0 (c : CalibrationSet) : Channel → Half
  | .temp => c.T0_OUT
  | .hum => c.H0_T0_OUT

/-- `ip_x1` for a channel (R138). -/
def CalibrationSet.x1 (c : CalibrationSet) : Channel → Half
  | .temp => c.T1_OUT
  | .hum => c.H1_T0_OUT

/-- `ip_y0` for a channel: `T0_degC_x8[9:0]` or `zext_10(H0_rH_x2)` (R138). -/
def CalibrationSet.y0 (c : CalibrationSet) : Channel → Code
  | .temp => c.T0_degC_x8.extractLsb' 0 10
  | .hum => c.H0_rH_x2.setWidth 10

/-- `ip_y1` for a channel: `T1_degC_x8[9:0]` or `zext_10(H1_rH_x2)` (R138). -/
def CalibrationSet.y1 (c : CalibrationSet) : Channel → Code
  | .temp => c.T1_degC_x8.extractLsb' 0 10
  | .hum => c.H1_rH_x2.setWidth 10

/-- How an operation reads a code operand: all 10 bits for INTERP_TEMP, bits 7:0 for INTERP_HUM (R161). -/
def readCode (op : Channel) (y : Code) : Int :=
  match op with
  | .temp => y.toNat
  | .hum => (y.extractLsb' 0 8).toNat

/-- The scale factor k of an operation (R161). -/
def scale : Channel → Int
  | .temp => 32
  | .hum => 128

end Sys2Proof.Machine
end

