-- ==== Sys2Proof/Machine/Flags.lean ====
section
/-! DEFINITION. The status codes (spec/30_encoding.md R79) and the only flags the block reads, the sensor's two
data-ready bits (spec/10_state.md R40). HTS221-CAL has no condition codes and no arithmetic flags: no operation
computes one (R40). -/

namespace Sys2Proof.Machine

open Sys2Proof

/-- The status of a response (R79). -/
inductive Status where
  | ok | initFail | illegalCmd | divZero | timeout
  deriving DecidableEq, Repr

/-- The 3-bit code of a status (R79); codes 5 to 7 are no status. -/
def Status.code : Status → BitVec 3
  | .ok => 0
  | .initFail => 1
  | .illegalCmd => 2
  | .divZero => 3
  | .timeout => 4

/-- Whether a response with this status records a fault: DIV_ZERO alone does (R200, R204, R212). -/
def Status.recordsFault : Status → Bool
  | .ok => false
  | .initFail => false
  | .illegalCmd => false
  | .divZero => true
  | .timeout => false

/-- `s[chan]` of a STATUS_REG byte: bit 0 "temp ready", bit 1 "humidity ready"; the other bits are ignored (R133). -/
def dataReady (c : Channel) (s : Byte) : Bool :=
  match c with
  | .temp => s.getLsbD 0
  | .hum => s.getLsbD 1

end Sys2Proof.Machine
end

