-- ==== Sys2Proof/Machine/Ops.lean ====
section
/-! DEFINITION. The named operations over the state: the inputs of a step, taking a bus answer, accepting a command,
responding, raising an error (HTS221-CAL's only exception entry), reset, driving the Interpolator port, and placing an
instruction where the next step takes it. -/

namespace Sys2Proof.Machine

open Sys2Proof

/-- The machine's outcome of a step. -/
abbrev Result := Host.Outcome State Fault Refusal

/-! ## The inputs of a step -/

/-- The inputs at this step: the first listed, or a free value when none is listed (R10). -/
def State.now (s : State) : Pins :=
  match s.env with
  | p :: _ => p
  | [] => Config.freePins s.clock

/-- Time passes: the inputs of this step are used up. -/
def State.tick (s : State) : State := { s with env := s.env.tail, clock := s.clock + 1 }

/-- A read request is answered with the byte on `bus_rsp_rdata`, or the Sequencer holds (R10, R51). -/
def State.onRead (s : State) (take : Byte → State) : State :=
  if s.now.busRspValid then take s.now.busRspRdata else s

/-- A write request is answered with `bus_rsp_ack`, or the Sequencer holds (R10, R52). -/
def State.onWrite (s : State) (take : Bool → State) : State :=
  if s.now.busRspValid then take s.now.busRspAck else s

/-! ## Commands and responses -/

/-- What accepting a command does before any other effect of it: `rsp_valid <- 0` (R38, R75). -/
def State.accept (s : State) : State := { s with rspValid := false }

/-- `respond(code, data)`: the response registers are written and the Sequencer returns to IDLE (R8, R77). -/
def State.respond (s : State) (code : Status) (data : Word) : State :=
  { s with st := .idle, rspStatus := code.code, rspData := data, rspValid := true }

/-- Error entry (R200): `respond(code, 0)`, and the sticky `fault` when the code is DIV_ZERO (R204, R212). Nothing
else is saved, and nothing is restored afterwards: the block has no handler and no return instruction (R208). -/
def State.raiseError (s : State) (code : Status) : State :=
  { s.respond code 0 with fault := s.fault || code.recordsFault }

/-- An illegal command word, accepted (R74, R203). -/
def State.illegalCommand (s : State) : State := s.accept.raiseError .illegalCmd

/-! ## Reset -/

/-- Reset (R230): every field at its reset value. The construction parameters are no state (R21) and the inputs to come
are the environment's, so both stay. -/
def State.resetStep (s : State) : State :=
  { State.reset with params := s.params, env := s.env, clock := s.clock }

/-! ## The Interpolator port -/

/-- The Interpolator port's outputs for the operands now driven on it (R86). -/
def State.driveIp (s : State) (out : IpOut) : State := { s with ip := out }

/-! ## Placing an instruction -/

/-- Inputs at a step with nothing on them. -/
def quietPins : Pins :=
  { rst := false, cmdValid := false, cmd := 0, busRspValid := false, busRspRdata := 0, busRspAck := false }

/-- Inputs that present a command word. -/
def commandPins (w : Byte) : Pins := { quietPins with cmdValid := true, cmd := w }

/-- Inputs that answer a read request. -/
def answerReadPins (b : Byte) : Pins := { quietPins with busRspValid := true, busRspRdata := b }

/-- Inputs that answer a write request. -/
def answerWritePins (ack : Bool) : Pins := { quietPins with busRspValid := true, busRspAck := ack }

/-- The machine with these inputs at its next step, before those listed. -/
def State.withPins (s : State) (p : Pins) : State := { s with env := p :: s.env }

/-- The machine with a command word presented at its next step and ready to accept it (R75). -/
def State.placeCommand (s : State) (w : Byte) : State := { s with st := .idle }.withPins (commandPins w)

/-- The two CalibrationSet fields of a channel that hold 16-bit points, and its two codes, at given values. -/
def CalibrationSet.withPoints (c : CalibrationSet) (ch : Channel) (x0 x1 : Half) (y0 y1 : Code) : CalibrationSet :=
  match ch with
  | .temp => { c with T0_OUT := x0, T1_OUT := x1, T0_degC_x8 := y0.setWidth 16, T1_degC_x8 := y1.setWidth 16 }
  | .hum => { c with H0_T0_OUT := x0, H1_T0_OUT := x1, H0_rH_x2 := y0.setWidth 8, H1_rH_x2 := y1.setWidth 8 }

/-- The machine at the conversion that drives these operands: RD_CONV, with `chan`, `raw` and the channel's part of
the CalibrationSet such that R138 drives them (R137). Bits 9:8 of a humidity code cannot be placed: the Sequencer drives
them with 0 (R161). -/
def State.placeOperation (s : State) (ch : Channel) (raw x0 x1 : Half) (y0 y1 : Code) : State :=
  { s with st := .rdConv, chan := ch, raw := raw, cal := s.cal.withPoints ch x0 x1 y0 y1 }.withPins quietPins

end Sys2Proof.Machine
end

