-- ==== Sys2Proof/Machine/Begin.lean ====
section
/-! DEFINITION. BEGIN, the initialisation sequence (spec/40_begin.md). -/

namespace Sys2Proof.Machine

open Sys2Proof

/-- Acceptance of BEGIN (R101). -/
def beginAccept (s : State) : State :=
  if s.initDone then s.accept.raiseError .illegalCmd else { s.accept with st := .initId }

/-- INIT_ID, the identity check (R102). -/
def initIdStep (s : State) : State :=
  s.onRead fun b => if b = Config.whoAmI then { s with st := .initCtrl } else s.raiseError .initFail

/-- INIT_CTRL, the CTRL_REG1 write (R103). -/
def initCtrlStep (s : State) : State :=
  s.onWrite fun ack => if ack then { s with st := .initAvg } else s.raiseError .initFail

/-- INIT_AVG, the AV_CONF write (R104). -/
def initAvgStep (s : State) : State :=
  s.onWrite fun ack => if ack then { s with calIdx := 0, st := .initCal } else s.raiseError .initFail

/-- INIT_CAL: one calibration read (R105), the last of which completes BEGIN (R106). -/
def initCalStep (s : State) : State :=
  s.onRead fun b =>
    let s' := { s with cal := capture s.calIdx b s.cal }
    if h : s.calIdx.val < 12 then { s' with calIdx := ⟨s.calIdx.val + 1, by omega⟩ }
    else { s' with calIdx := 0, initDone := true }.respond .ok 0

/-- The Sequencer step that BEGIN makes: acceptance in IDLE, its step rule where it is in progress. While a reading is
in progress, a presented BEGIN is not accepted and not lost (R75). -/
def beginStep (s : State) : State :=
  match s.st with
  | .idle => beginAccept s
  | .initId => initIdStep s
  | .initCtrl => initCtrlStep s
  | .initAvg => initAvgStep s
  | .initCal => initCalStep s
  | .rdPoll => s
  | .rdOutL => s
  | .rdOutH => s
  | .rdConv => s
  | .unused _ => s

/-- BEGIN (R100), one Sequencer step of it. -/
def execBegin (s : State) : Result := .next (beginStep s)

end Sys2Proof.Machine
end

