-- ==== Sys2Proof/Machine/Interpolate.lean ====
section
/-! DEFINITION. The Interpolator (spec/42_interpolate.md) and the meanings of its two operations, INTERP_TEMP (R162)
and INTERP_HUM (R163). Arithmetic is on exact integers (R6) and is narrowed once, at the output. -/

namespace Sys2Proof.Machine

open Sys2Proof

/-- The quotient rounded toward minus infinity, in R7's terms of truncating division. -/
def floordiv (n d : Int) : Int :=
  n.tdiv d - (if n.tmod d ≠ 0 ∧ decide (n < 0) ≠ decide (d < 0) then 1 else 0)

/-! ## The datapath, part by part (R164) -/

/-- Subtractor A: `dy = y1 - y0`. -/
def subtractorA (op : Channel) (y0 y1 : Code) : Int := readCode op y1 - readCode op y0

/-- Subtractor B: `dxr = raw - x0`. -/
def subtractorB (raw x0 : Half) : Int := raw.toInt - x0.toInt

/-- Subtractor C: `dxc = x1 - x0`, the divisor. -/
def subtractorC (x0 x1 : Half) : Int := x1.toInt - x0.toInt

/-- Multiplier and shift: `N = dy * dxr * k`. -/
def multiplier (op : Channel) (raw x0 : Half) (y0 y1 : Code) : Int :=
  subtractorA op y0 y1 * subtractorB raw x0 * scale op

/-- Shift, divider and adder: `r = y0 * k + floordiv(N, dxc)`, before the clamp (R166). -/
def adder (op : Channel) (raw x0 x1 : Half) (y0 y1 : Code) : Int :=
  readCode op y0 * scale op + floordiv (multiplier op raw x0 y0 y1) (subtractorC x0 x1)

/-- The clamp: INTERP_HUM's results stop at 25600, 100.0 in Q24.8 (R167); there is no other clamp (R168). -/
def clamp (op : Channel) (r : Int) : Int :=
  match op with
  | .temp => r
  | .hum => if r > 25600 then 25600 else r

/-- The Interpolator: a pure function of its port operands (R171). A zero divisor divides nothing and is reported on
`ip_dz` with `ip_result` 0 (R165). -/
def interp (op : Channel) (raw x0 x1 : Half) (y0 y1 : Code) : IpOut :=
  if subtractorC x0 x1 = 0 then { result := 0, dz := true }
  else { result := BitVec.ofInt 32 (clamp op (adder op raw x0 x1 y0 y1)), dz := false }

/-! ## The meanings -/

/-- INTERP_TEMP (R162): the port's outputs for operation 0. No other state is read or written (R171). -/
def execInterpTemp (raw x0 x1 : Half) (y0 y1 : Code) (s : State) : Result :=
  .next (s.driveIp (interp .temp raw x0 x1 y0 y1))

/-- INTERP_HUM (R163): the port's outputs for operation 1. No other state is read or written (R171). -/
def execInterpHum (raw x0 x1 : Half) (y0 y1 : Code) (s : State) : Result :=
  .next (s.driveIp (interp .hum raw x0 x1 y0 y1))

end Sys2Proof.Machine
end

