-- ==== Sys2Proof/Machine/Read.lean ====
section
/-! DEFINITION. READ_TEMP and READ_HUM, the reading protocol (spec/41_read.md): the steps they share, with the channel
selecting registers and operands, and their meanings. -/

namespace Sys2Proof.Machine

open Sys2Proof

/-- Acceptance of a reading on a channel (R132). -/
def readAccept (c : Channel) (s : State) : State :=
  if s.initDone then { s.accept with chan := c, pollCnt := 0, st := .rdPoll }
  else s.accept.raiseError .illegalCmd

/-- RD_POLL with the data-ready bit clear (R136). -/
def pollAgain (s : State) : State :=
  if s.params.pollLimit = 0 then s
  else if s.pollCnt.toNat + 1 = s.params.pollLimit.toNat then s.raiseError .timeout
  else { s with pollCnt := s.pollCnt + 1 }

/-- RD_POLL, the data-ready poll (R133). -/
def rdPollStep (s : State) : State :=
  s.onRead fun b => if dataReady s.chan b then { s with st := .rdOutL } else pollAgain s

/-- RD_OUT_L, the raw output's low byte (R134). -/
def rdOutLStep (s : State) : State :=
  s.onRead fun b => { s with rawLo := b, st := .rdOutH }

/-- RD_OUT_H, the raw output's high byte (R135). -/
def rdOutHStep (s : State) : State :=
  s.onRead fun b => { s with raw := assembleHalf b s.rawLo, st := .rdConv }

/-- The operation the Sequencer drives on the Interpolator port in RD_CONV: `ip_op` = `chan` and R138's operands
(R137). -/
def State.conversion (s : State) : Instr :=
  match s.chan with
  | .temp => .interpTemp s.raw (s.cal.x0 .temp) (s.cal.x1 .temp) (s.cal.y0 .temp) (s.cal.y1 .temp)
  | .hum => .interpHum s.raw (s.cal.x0 .hum) (s.cal.x1 .hum) (s.cal.y0 .hum) (s.cal.y1 .hum)

/-- The Interpolator's outputs for the operands driven in RD_CONV (R137, R138). -/
def State.ipOutputs (s : State) : IpOut :=
  interp s.chan s.raw (s.cal.x0 s.chan) (s.cal.x1 s.chan) (s.cal.y0 s.chan) (s.cal.y1 s.chan)

/-- The end of a reading, from the Interpolator's outputs (R139). -/
def endReading (s : State) : State :=
  if s.ip.dz then s.raiseError .divZero else s.respond .ok s.ip.result

/-- RD_CONV (R137 to R139): the Interpolator is atomic inside the step (R10). -/
def rdConvStep (s : State) : State := endReading (s.driveIp s.ipOutputs)

/-- The Sequencer step that a reading on channel `c` makes: acceptance in IDLE, its step rule where it is in progress.
While another command is in progress, a presented reading is not accepted and not lost (R75). -/
def readStep (c : Channel) (s : State) : State :=
  match s.st with
  | .idle => readAccept c s
  | .initId => s
  | .initCtrl => s
  | .initAvg => s
  | .initCal => s
  | .rdPoll => if s.chan = c then rdPollStep s else s
  | .rdOutL => if s.chan = c then rdOutLStep s else s
  | .rdOutH => if s.chan = c then rdOutHStep s else s
  | .rdConv => if s.chan = c then rdConvStep s else s
  | .unused _ => s

/-- READ_TEMP (R130), one Sequencer step of it. -/
def execReadTemp (s : State) : Result := .next (readStep .temp s)

/-- READ_HUM (R131), one Sequencer step of it. -/
def execReadHum (s : State) : Result := .next (readStep .hum s)

end Sys2Proof.Machine
end

