-- ==== Sys2Proof/Machine/Dispatch.lean ====
section
/-! DEFINITION. exec: one arm for each instruction. -/

namespace Sys2Proof.Machine

open Sys2Proof

def exec (i : Instr) (s : State) : Host.Outcome State Fault Refusal :=
  match i with
  | .begin => Sys2Proof.Machine.execBegin s
  | .readTemp => Sys2Proof.Machine.execReadTemp s
  | .readHum => Sys2Proof.Machine.execReadHum s
  | .interpTemp raw x0 x1 y0 y1 => Sys2Proof.Machine.execInterpTemp raw x0 x1 y0 y1 s
  | .interpHum raw x0 x1 y0 y1 => Sys2Proof.Machine.execInterpHum raw x0 x1 y0 y1 s

end Sys2Proof.Machine
end

