-- ==== Sys2Proof/Machine/Fetch.lean ====
section
/-! DEFINITION. What the Sequencer does at one step: which instruction acts (spec/00_scope.md R10), and everything the
step does beside it: reset (R230, R243), an illegal command word (R203), the end of a reading (R139), a hold (R10). -/

namespace Sys2Proof.Machine

open Sys2Proof

/-- What happens at a step. -/
inductive Fetched where
  /-- Reset (R230), or an unused state encoding, which acts as reset (R243). -/
  | reset
  /-- The command accepted at this step, or the one in progress, makes its step. -/
  | command (i : Instr)
  /-- An illegal command word is accepted (R74, R203). -/
  | illegal
  /-- RD_CONV: an operation is driven on the Interpolator port, and the reading ends with its outputs (R137, R139). -/
  | operation (i : Instr)
  /-- IDLE and no command presented: nothing happens. -/
  | hold
  deriving DecidableEq, Repr

/-- The command that reads a channel (R130, R131). -/
def readCommand : Channel → Instr
  | .temp => .readTemp
  | .hum => .readHum

/-- The command word of the reading on a channel (R73). -/
def readWord : Channel → Byte
  | .temp => 0x02
  | .hum => 0x03

/-- What happens at the step at `s`. Reset has priority over every step rule (R230). -/
def State.fetch (s : State) : Fetched :=
  if s.now.rst then .reset
  else match s.st with
    | .idle =>
      if s.now.cmdValid then
        match decodeCmd s.now.cmd with
        | .ok i => .command i
        | .error _ => .illegal
      else .hold
    | .initId => .command .begin
    | .initCtrl => .command .begin
    | .initAvg => .command .begin
    | .initCal => .command .begin
    | .rdPoll => .command (readCommand s.chan)
    | .rdOutL => .command (readCommand s.chan)
    | .rdOutH => .command (readCommand s.chan)
    | .rdConv => .operation s.conversion
    | .unused _ => .reset

/-- An outcome with its next state, if it has one, changed. -/
def mapNext (f : State → State) : Result → Result
  | .next s => .next (f s)
  | .fault r => .fault r
  | .refused r => .refused r

/-- The Sequencer's part of a step. -/
def sequencerStep (s : State) : Result :=
  match s.fetch with
  | .reset => .next s.resetStep
  | .command i => exec i s
  | .illegal => .next s.illegalCommand
  | .operation i => mapNext endReading (exec i s)
  | .hold => .next s

/-- One step: the Sequencer's part, and time passes. -/
def fullStep (s : State) : Result := mapNext State.tick (sequencerStep s)

/-- The machine with an opcode-table word where its next step takes an instruction: a command word on the Host port, in
IDLE; an operation on the Interpolator port, in RD_CONV (log entries 5, 8). -/
def State.place (s : State) : PortWord → State
  | .cmd8 w => s.placeCommand w
  | .ipop1 p =>
    match decodeIp p with
    | .interpTemp raw x0 x1 y0 y1 => s.placeOperation .temp raw x0 x1 y0 y1
    | .interpHum raw x0 x1 y0 y1 => s.placeOperation .hum raw x0 x1 y0 y1
    | .begin => s
    | .readTemp => s
    | .readHum => s

end Sys2Proof.Machine
end

