-- ==== Sys2Proof/Machine/Step.lean ====
section
/-! DEFINITION. The step, and the state with an instruction placed where the step takes its next one. -/

namespace Sys2Proof.Machine

open Sys2Proof

/-- One step of HTS221-CAL: a Sequencer step (R10), a hold, or a reset. -/
def step (s : State) : Host.Outcome State Fault Refusal := fullStep s

/-- `s` with the opcode-table word `w` of `nbits` bits placed so that `step` runs it next. -/
def State.withFetchWord (s : State) (nbits w : Nat) : State := s.place (tableWord nbits w)

end Sys2Proof.Machine
end

