-- ==== Sys2Proof/Machine/Ports.lean ====
section
/-! DEFINITION. The output signals of HTS221-CAL as functions of its state: the Host port (spec/30_encoding.md R71) and
the Bus port (R81 to R84). -/

namespace Sys2Proof.Machine

open Sys2Proof

/-- The Host port's outputs (R71). -/
structure HostOut where
  cmdReady    : Bool        -- `cmd_ready`
  rspValid    : Bool        -- `rsp_valid`
  rspStatus   : BitVec 3    -- `rsp_status`
  rspData     : Word        -- `rsp_data`
  initialized : Bool        -- `initialized`
  fault       : Bool        -- `fault`
  deriving DecidableEq, Repr

/-- The Host port at a state (R71). -/
def State.hostOut (s : State) : HostOut :=
  { cmdReady := decide (s.st = .idle), rspValid := s.rspValid, rspStatus := s.rspStatus, rspData := s.rspData,
    initialized := s.initDone, fault := s.fault }

/-- A bus request: the Bus port's outputs while `bus_req_valid` = 1 (R81). -/
structure BusReq where
  we    : Bool        -- `bus_req_we`, true for a write
  dev   : BitVec 7    -- `bus_req_dev`
  addr  : Byte        -- `bus_req_addr`
  wdata : Byte        -- `bus_req_wdata`
  deriving DecidableEq, Repr

/-- A read request for a sensor register (R82). -/
def readReq (p : Params) (a : Byte) : BusReq := { we := false, dev := p.devAddr, addr := a, wdata := 0 }

/-- A write request (R82). -/
def writeReq (p : Params) (a v : Byte) : BusReq := { we := true, dev := p.devAddr, addr := a, wdata := v }

/-- The register of a raw output's low byte (R84, R134). -/
def outLAddr : Channel → Byte
  | .temp => 0x2A
  | .hum => 0x28

/-- The register of a raw output's high byte (R84, R135). -/
def outHAddr : Channel → Byte
  | .temp => 0x2B
  | .hum => 0x29

/-- The bus request presented at a state (R84), none outside the bus states (R83). -/
def State.busReq (s : State) : Option BusReq :=
  match s.st with
  | .idle => none
  | .initId => some (readReq s.params 0x0F)
  | .initCtrl => some (writeReq s.params 0x20 s.params.ctrlReg1Val)
  | .initAvg => some (writeReq s.params 0x10 s.params.avConfVal)
  | .initCal => some (readReq s.params (calAddr s.calIdx))
  | .rdPoll => some (readReq s.params 0x27)
  | .rdOutL => some (readReq s.params (outLAddr s.chan))
  | .rdOutH => some (readReq s.params (outHAddr s.chan))
  | .rdConv => none
  | .unused _ => none

/-- `bus_req_valid`: whether the state is a bus state (R81, R83). -/
def State.busReqValid (s : State) : Bool := s.busReq.isSome

end Sys2Proof.Machine
end

