-- ==== Sys2Proof/Machine/Observe.lean ====
section
/-! DEFINITION. What is observed of a run (spec/00_scope.md R12): the bus requests issued and the responses delivered
at each step, and the requests answered; programs and their end (R13); bus scripts (spec/30_encoding.md R90) and a machine driven by a program and
a script. -/

namespace Sys2Proof.Machine

open Sys2Proof

/-- Whether the step at `s` is a Sequencer step (R10): a command accepted, a bus request answered, or a conversion; not
a hold and not a reset. -/
def State.advances (s : State) : Bool :=
  match s.fetch with
  | .reset => false
  | .command _ => if s.busReqValid then s.now.busRspValid else true
  | .illegal => true
  | .operation _ => true
  | .hold => false

/-- The bus request that the step at `s` issues (R12): a Sequencer step that ends in a bus state presents a new request,
"even when its fields are the same" (R81). It is issued whether or not it is ever answered (R11), and stays issued if a
reset abandons it (R232). A hold issues none: it keeps presenting the same request (R10). -/
def State.issued (s : State) : Option BusReq :=
  match step s with
  | .next t => if s.advances then t.busReq else none
  | .fault _ => none
  | .refused _ => none

/-- The bus request answered at the step at `s` (R81). Every answer taken completes one request, and what is presented
after it is a new one (R50, R81). -/
def State.answered (s : State) : Option BusReq := if s.advances then s.busReq else none

/-- The response that the step at `s` delivers (R78): the Sequencer steps that end in IDLE are those that respond. -/
def State.delivered (s : State) : Option (BitVec 3 × Word) :=
  match step s with
  | .next t => if s.advances && decide (t.st = .idle) then some (t.rspStatus, t.rspData) else none
  | .fault _ => none
  | .refused _ => none

/-- What a run shows (R12), less the level signals: the requests it issues and the responses it delivers, each in
order. -/
structure Trace where
  requests  : List BusReq
  responses : List (BitVec 3 × Word)
  deriving DecidableEq, Repr

/-- The trace of the first `n` steps from `s`. A request that `s` itself presents was issued before. -/
def trace : Nat → State → Trace
  | 0, _ => { requests := [], responses := [] }
  | n + 1, s =>
    match step s with
    | .next t =>
      let rest := trace n t
      { requests := s.issued.toList ++ rest.requests, responses := s.delivered.toList ++ rest.responses }
    | .fault _ => { requests := [], responses := [] }
    | .refused _ => { requests := [], responses := [] }

/-- The requests answered in the first `n` steps from `s`, in order (R63). -/
def answeredIn : Nat → State → List BusReq
  | 0, _ => []
  | n + 1, s =>
    match step s with
    | .next t => s.answered.toList ++ answeredIn n t
    | .fault _ => []
    | .refused _ => []

/-! ## Programs and bus scripts -/

/-- One line of a bus script (R90): a request and the transport's answer to it. -/
inductive BusLine where
  /-- `R addr -> data` -/
  | read (addr data : Byte)
  /-- `W addr, data -> ack` or `-> nak` -/
  | write (addr data : Byte) (ack : Bool)
  deriving DecidableEq, Repr

/-- Whether a request is the one the script line lists (R90). -/
def BusLine.lists (l : BusLine) (q : BusReq) : Bool :=
  match l with
  | .read a _ => !q.we && decide (q.addr = a)
  | .write a v _ => q.we && decide (q.addr = a) && decide (q.wdata = v)

/-- The inputs that carry the line's answer. -/
def BusLine.pins : BusLine → Pins
  | .read _ b => answerReadPins b
  | .write _ _ ack => answerWritePins ack

/-- A machine run by a Host that presents a program's command words in order, each once the response to the one before
has been delivered (R13), and by a transport that answers from a bus script (R90). -/
structure Session where
  machine   : State
  program   : List Byte                 -- command words not yet accepted
  script    : List BusLine              -- answers not yet given
  accepted  : Nat                       -- commands accepted
  requests  : List BusReq               -- requests issued, oldest first
  responses : List (BitVec 3 × Word)    -- responses delivered, oldest first
  mismatch  : Bool                      -- a request was issued that the script does not list next
  deriving DecidableEq, Repr

/-- A session at its start. -/
def Session.start (s : State) (program : List Byte) (script : List BusLine) : Session :=
  { machine := s, program := program, script := script, accepted := 0, requests := [], responses := [], mismatch := false }

/-- As many responses delivered as commands accepted, but for the one command in progress outside IDLE (R75, R78). -/
def Session.balanced (x : Session) : Bool :=
  decide (x.responses.length + (if x.machine.st = .idle then 0 else 1) = x.accepted)

/-- A program's end of run (R13). -/
def Session.endOfRun (x : Session) : Bool :=
  x.program.isEmpty && decide (x.responses.length = x.accepted) && decide (x.machine.st = .idle)

/-- The inputs of a session's next step. A request with no script line left, or not the one listed, is not answered. -/
def Session.pins (x : Session) : Pins :=
  match x.machine.busReq with
  | some q =>
    match x.script with
    | l :: _ => if l.lists q then l.pins else quietPins
    | [] => quietPins
  | none =>
    match x.machine.st, x.program with
    | .idle, w :: _ => commandPins w
    | _, _ => quietPins

/-- One step of a session. -/
def Session.step (x : Session) : Session :=
  let s := { x.machine with env := [x.pins] }
  match Sys2Proof.Machine.step s with
  | .next t =>
    { machine := t
      program := if s.now.cmdValid then x.program.tail else x.program
      script := if s.answered.isSome then x.script.tail else x.script
      accepted := if s.now.cmdValid then x.accepted + 1 else x.accepted
      requests := x.requests ++ s.issued.toList
      responses := x.responses ++ s.delivered.toList
      mismatch := x.mismatch || (s.busReqValid && !s.now.busRspValid) }
  | .fault _ => x
  | .refused _ => x

/-- The first `n` steps of a session, stopping at the end of its run. -/
def Session.run : Nat → Session → Session
  | 0, x => x
  | n + 1, x => if x.endOfRun then x else Session.run n x.step

end Sys2Proof.Machine
end

