-- ==== Sys2Proof/Safety.lean ====
section
/-! DEFINITION. The terms statements use: runs, the inputs of a run, the invariants of HTS221-CAL, and the duties of its
environment (spec/70_reset_and_hazards.md R246). -/

namespace Sys2Proof.Machine

open Sys2Proof

/-- The outcome of `n` steps, stopping at the first that is not a next state. -/
def run : Nat → State → Result
  | 0, s => .next s
  | n + 1, s =>
    match step s with
    | .next t => run n t
    | .fault r => .fault r
    | .refused r => .refused r

/-- The inputs of the step `k` steps after the one at `s`. -/
def State.pinsAt (s : State) (k : Nat) : Pins :=
  match s.env[k]? with
  | some p => p
  | none => Config.freePins (s.clock + k)

/-- `s` when `n` steps have passed in which nothing of the machine changed. -/
def State.elapsed (s : State) (n : Nat) : State := { s with env := s.env.drop n, clock := s.clock + n }

/-- The states of a BEGIN in progress (R83). -/
def St.inBegin : St → Bool
  | .initId | .initCtrl | .initAvg | .initCal => true
  | .idle | .rdPoll | .rdOutL | .rdOutH | .rdConv | .unused _ => false

/-- The states of a reading in progress (R83). -/
def St.inReading : St → Bool
  | .rdPoll | .rdOutL | .rdOutH | .rdConv => true
  | .idle | .initId | .initCtrl | .initAvg | .initCal | .unused _ => false

/-- The encodings R83 leaves unused. -/
def St.isUnused : St → Bool
  | .unused _ => true
  | .idle | .initId | .initCtrl | .initAvg | .initCal | .rdPoll | .rdOutL | .rdOutH | .rdConv => false

/-- Whether a channel's calibration delta is zero: `ip_x1` = `ip_x0` (R165). -/
def CalibrationSet.zeroDelta (c : CalibrationSet) (ch : Channel) : Bool := decide (c.x1 ch = c.x0 ch)

/-- What holds of every state that HTS221-CAL reaches from reset. -/
structure Invariant (s : State) : Prop where
  /-- `st` holds none of the unused encodings (R83, R243). -/
  stUsed : s.st.isUnused = false
  /-- BEGIN is in progress only while UNINITIALIZED (R101, R33). -/
  beginUninitialized : s.st.inBegin = true → s.initDone = false
  /-- A reading is in progress only while INITIALIZED (R132). -/
  readingInitialized : s.st.inReading = true → s.initDone = true
  /-- `cal_idx` is 0 outside INIT_CAL (R24). -/
  calIdxZero : s.st ≠ .initCal → s.calIdx = 0
  /-- `poll_cnt` "never exceeds POLL_LIMIT - 1", and stays 0 when there is no limit (R26). -/
  pollBound : s.pollCnt.toNat ≤ s.params.pollLimit.toNat - 1
  /-- `rsp_valid` is 1 only between a response and the next acceptance (R38). -/
  responseInIdle : s.rspValid = true → s.st = .idle
  /-- Codes 5, 6 and 7 are never produced (R79). -/
  statusLegal : s.rspStatus.toNat ≤ 4
  /-- A response that is not OK has data 0 (R80). -/
  errorDataZero : s.rspStatus ≠ 0 → s.rspData = 0
  /-- TIMEOUT is raised only where there is a limit (R205). -/
  timeoutLimited : s.rspStatus = 4 → s.params.pollLimit ≠ 0
  /-- Bits 15:10 of the temperature codes are 0 (R30). -/
  codeT0 : s.cal.T0_degC_x8.toNat < 1024
  /-- Bits 15:10 of the temperature codes are 0 (R30). -/
  codeT1 : s.cal.T1_degC_x8.toNat < 1024
  /-- The CalibrationSet holds its reset value until INIT_CAL is entered (R28, R107). -/
  calUnread : s.initDone = false → s.st ≠ .initCal → s.cal = .zero
  /-- `fault` records a conversion that found a zero delta (R39), and the CalibrationSet has not changed since (R33). -/
  faultFromZeroDelta : s.fault = true → s.initDone = true ∧ ∃ ch, s.cal.zeroDelta ch = true
  /-- A DIV_ZERO response leaves `fault` set (R204, R212). -/
  divZeroFault : s.rspStatus = 3 → s.fault = true

/-- The Bus Transport's duty at a step: it answers only a request that is presented (R246). The statements do not assume
it: outside a bus state an answer is ignored (R232). -/
def State.transportDuty (s : State) : Prop := s.now.busRspValid = true → s.busReqValid = true

/-- The Host's duty between a step and the next: a command presented and not accepted stays, with the same word (R237).
The statements do not assume it: "A command changed before acceptance is taken as its value at the accepting step". -/
def State.hostDuty (s : State) : Prop :=
  s.now.cmdValid = true → s.st ≠ .idle → (s.pinsAt 1).cmdValid = true ∧ (s.pinsAt 1).cmd = s.now.cmd

end Sys2Proof.Machine
end

