-- ==== Sys2Proof/Certificates/Slice0/Obligations.lean ====
section
/-! DEFINITION. The statements for the provers, from the numbered rules of spec/. -/

open Sys2Proof Sys2Proof.Machine

/-! ## Terms of the statements -/

/-- The result R170 relates the Interpolator to, 256·R, over the rationals: the source's formula with the codes' divisor
`s` (8 for temperature, 2 for humidity), times 256. -/
def formula256 (s : ℚ) (raw x0 x1 : Half) (y0 y1 : Nat) : ℚ :=
  256 * (y0 / s + (y1 / s - y0 / s) * ((raw.toInt : ℚ) - x0.toInt) / ((x1.toInt : ℚ) - x0.toInt))

/-- The CalibrationSet that thirteen calibration bytes stand for (R57, R59), in the arithmetic of byte values. -/
def calFromBytes (b : Fin 13 → Byte) : CalibrationSet :=
  let pair (lo hi : Fin 13) : Half := BitVec.ofNat 16 ((b hi).toNat * 256 + (b lo).toNat)
  { H0_rH_x2 := b 0
    H1_rH_x2 := b 1
    T0_degC_x8 := BitVec.ofNat 16 ((b 4).toNat % 4 * 256 + (b 2).toNat)
    T1_degC_x8 := BitVec.ofNat 16 ((b 4).toNat / 4 % 4 * 256 + (b 3).toNat)
    H0_T0_OUT := pair 5 6
    H1_T0_OUT := pair 7 8
    T0_OUT := pair 9 10
    T1_OUT := pair 11 12 }

/-- The register addresses of the thirteen calibration reads, in order (R110). -/
def calAddrs : List Byte :=
  [0x30, 0x31, 0x32, 0x33, 0x35, 0x36, 0x37, 0x3A, 0x3B, 0x3C, 0x3D, 0x3E, 0x3F]

/-- A state with the response registers as `respond` leaves them. -/
def responded (s : State) (code : BitVec 3) (data : Word) : State :=
  { s with st := .idle, rspValid := true, rspStatus := code, rspData := data }

/-- The responses to a reading: the conversion of `raw` by the CalibrationSet, or DIV_ZERO (R139). -/
def readingResponse (cal : CalibrationSet) (c : Channel) (raw : Half) : BitVec 3 × Word :=
  if cal.x1 c = cal.x0 c then (3, 0)
  else (0, (interp c raw (cal.x0 c) (cal.x1 c) (cal.y0 c) (cal.y1 c)).result)

/-! ## Encodings -/

/-- R76: the decoder is total on the 256 command words. -/
def Obligations.CommandDecoderIsTheOpcodeMap : Prop :=
  ∀ w : Byte, decodeCmd w =
    if w = 0x01 then .ok .begin else if w = 0x02 then .ok .readTemp else if w = 0x03 then .ok .readHum
    else .error (.illegalCommand w)

/-- Words written out bit by bit from R72, R73, R86 and R87, and the instructions they stand for. The order of the
signals in an IPOP1 word is the model's choice (log entry 8). -/
def Obligations.SampleWordsDecode : Prop :=
  decode (.cmd8 0b00000001) = .ok .begin ∧
  decode (.cmd8 0b00000010) = .ok .readTemp ∧
  decode (.cmd8 0b00000011) = .ok .readHum ∧
  decode (.cmd8 0b00010001) = .error (.illegalCommand 0x11) ∧
  decode (.ipop1 0b0110010000_0010100000_0000001111101000_0000000000000000_0000000111110100_0) =
    .ok (.interpTemp 500 0 1000 160 400) ∧
  decode (.ipop1 0b0010100000_0000101000_0000001111101000_0000000000000000_0000000111110100_1) =
    .ok (.interpHum 500 0 1000 40 160)

/-- Decoding and encoding agree in both directions, with every operand at every value: a word decodes to an instruction
exactly when it is that instruction's encoding. The order of the signals in an IPOP1 word is the model's choice (log
entry 8). -/
def Obligations.DecodeIffEncode : Prop :=
  ∀ (p : PortWord) (i : Instr), decode p = .ok i ↔ p = encode i

/-! ## The Interpolator -/

/-- R7: `floordiv` is the quotient rounded toward minus infinity, is the only such integer, is R7's expression in
truncating division, and is never evaluated on a zero divisor. -/
def Obligations.FloordivRoundsDown : Prop :=
  (∀ n d : Int, d ≠ 0 →
    (floordiv n d : ℚ) ≤ (n : ℚ) / d ∧ (n : ℚ) / d < floordiv n d + 1 ∧
    (∀ q : Int, (q : ℚ) ≤ (n : ℚ) / d → (n : ℚ) / d < q + 1 → q = floordiv n d) ∧
    floordiv n d = n.tdiv d - (if n.tmod d ≠ 0 ∧ decide (n < 0) ≠ decide (d < 0) then 1 else 0)) ∧
  (∀ op raw x0 y0 y1, interp op raw x0 x0 y0 y1 = { result := 0, dz := true }) ∧
  floordiv 7 2 = 3 ∧ floordiv (-7) 2 = -4 ∧ floordiv 7 (-2) = -4 ∧ floordiv (-7) (-2) = 3 ∧ floordiv (-6) 3 = -2

/-- R162: INTERP_TEMP completes from every state with the outputs its pseudocode gives, and changes nothing else. The
port's outputs stand in the model's field `ip` (log entry 3). -/
def Obligations.InterpTempResult : Prop :=
  ∀ (raw x0 x1 : Half) (y0 y1 : Code) (s : State),
    exec (.interpTemp raw x0 x1 y0 y1) s = .next { s with
      ip :=
        if x1.toInt - x0.toInt = 0 then { result := 0, dz := true }
        else
          { result := BitVec.ofInt 32 ((y0.toNat : Int) * 32 +
              floordiv (((y1.toNat : Int) - y0.toNat) * (raw.toInt - x0.toInt) * 32) (x1.toInt - x0.toInt))
            dz := false } }

/-- R163: INTERP_HUM completes from every state with the outputs its pseudocode gives (bits 7:0 of the codes, the clamp
at 25600), and changes nothing else. The port's outputs stand in the model's field `ip` (log entry 3). -/
def Obligations.InterpHumResult : Prop :=
  ∀ (raw x0 x1 : Half) (y0 y1 : Code) (s : State),
    let y0' : Int := (y0.toNat % 256 : Nat)
    let y1' : Int := (y1.toNat % 256 : Nat)
    let r := y0' * 128 + floordiv ((y1' - y0') * (raw.toInt - x0.toInt) * 128) (x1.toInt - x0.toInt)
    exec (.interpHum raw x0 x1 y0 y1) s = .next { s with
      ip :=
        if x1.toInt - x0.toInt = 0 then { result := 0, dz := true }
        else { result := BitVec.ofInt 32 (if r > 25600 then 25600 else r), dz := false } }

/-- R166, R168, R170: read as a signed word, INTERP_TEMP's result is the floor of 256 times the source's formula: exact,
unclamped, with no overflow. The port's outputs stand in the model's field `ip` (log entry 3). -/
def Obligations.InterpTempIsFlooredFormula : Prop :=
  ∀ (raw x0 x1 : Half) (y0 y1 : Code) (s t : State),
    x1 ≠ x0 → exec (.interpTemp raw x0 x1 y0 y1) s = .next t →
      t.ip.dz = false ∧ t.ip.result.toInt = ⌊formula256 8 raw x0 x1 y0.toNat y1.toNat⌋

/-- R166 to R168, R170: read as a signed word, INTERP_HUM's result is the floor of 256 times the source's formula, or
25600 where that is larger; there is no lower clamp. The port's outputs stand in the model's field `ip` (log entry 3).
-/
def Obligations.InterpHumIsClampedFlooredFormula : Prop :=
  ∀ (raw x0 x1 : Half) (y0 y1 : Code) (s t : State),
    x1 ≠ x0 → exec (.interpHum raw x0 x1 y0 y1) s = .next t →
      t.ip.dz = false ∧
      t.ip.result.toInt = min ⌊formula256 2 raw x0 x1 (y0.toNat % 256) (y1.toNat % 256)⌋ 25600

/-- R169: the adder's result lies within the extremes the rule gives, which are reached; the output word holds the
result after the clamp exactly. -/
def Obligations.InterpolatorNeverOverflows : Prop :=
  (∀ (raw x0 x1 : Half) (y0 y1 : Code), x1 ≠ x0 →
    -2145321024 ≤ adder .temp raw x0 x1 y0 y1 ∧ adder .temp raw x0 x1 y0 y1 ≤ 2145353760 ∧
    -2139029760 ≤ adder .hum raw x0 x1 y0 y1 ∧ adder .hum raw x0 x1 y0 y1 ≤ 2139062400 ∧
    (∀ op, (interp op raw x0 x1 y0 y1).result.toInt = clamp op (adder op raw x0 x1 y0 y1))) ∧
  adder .temp 0x7FFF 0x8000 0x8001 0 1023 = 2145353760 ∧ adder .temp 0x7FFF 0x8000 0x8001 1023 0 = -2145321024 ∧
  adder .hum 0x7FFF 0x8000 0x8001 0 255 = 2139062400 ∧ adder .hum 0x7FFF 0x8000 0x8001 255 0 = -2139029760

/-- R172: at a calibration point the result is that point's code exactly (for humidity, before the clamp at 100.0), and
with equal codes it is that code for every raw value. -/
def Obligations.InterpolatorPassesThroughItsPoints : Prop :=
  ∀ (op : Channel) (raw x0 x1 : Half) (y0 y1 : Code), x1 ≠ x0 →
    adder op x0 x0 x1 y0 y1 = readCode op y0 * scale op ∧
    adder op x1 x0 x1 y0 y1 = readCode op y1 * scale op ∧
    adder op raw x0 x1 y0 y0 = readCode op y0 * scale op

/-- R173: for fixed calibration operands the result is monotone in the raw value: non-decreasing when dy·dxc > 0,
non-increasing when dy·dxc < 0, constant when dy = 0. -/
def Obligations.InterpolatorIsMonotoneInRaw : Prop :=
  ∀ (op : Channel) (raw raw' x0 x1 : Half) (y0 y1 : Code), x1 ≠ x0 → raw.toInt ≤ raw'.toInt →
    let r := (interp op raw x0 x1 y0 y1).result.toInt
    let r' := (interp op raw' x0 x1 y0 y1).result.toInt
    let slope := subtractorA op y0 y1 * subtractorC x0 x1
    (0 < slope → r ≤ r') ∧ (slope < 0 → r' ≤ r) ∧ (subtractorA op y0 y1 = 0 → r = r')

/-- R161: INTERP_HUM ignores bits 9:8 of both codes. -/
def Obligations.InterpHumIgnoresHighCodeBits : Prop :=
  ∀ (raw x0 x1 : Half) (y0 y1 y0' y1' : Code) (s : State),
    y0.extractLsb' 0 8 = y0'.extractLsb' 0 8 → y1.extractLsb' 0 8 = y1'.extractLsb' 0 8 →
      exec (.interpHum raw x0 x1 y0 y1) s = exec (.interpHum raw x0 x1 y0' y1') s

/-- R171: the frame and purity of both operations: the outputs are the same from any two states, and an operation writes
nothing but the port's outputs. That the port's outputs stand in a field, `ip`, is the model's choice (log entry 3). -/
def Obligations.InterpolatorIsPure : Prop :=
  ∀ (raw x0 x1 : Half) (y0 y1 : Code) (s s' t t' : State) (i : Instr),
    (i = .interpTemp raw x0 x1 y0 y1 ∨ i = .interpHum raw x0 x1 y0 y1) →
    exec i s = .next t → exec i s' = .next t' →
      t.ip = t'.ip ∧ t = { s with ip := t.ip }

/-! ## BEGIN -/

/-- R101: acceptance of BEGIN, as the command's meaning and as the machine's step. No bus request is issued when BEGIN is
refused. -/
def Obligations.BeginAcceptance : Prop :=
  ∀ s : State, s.st = .idle →
    let t : State :=
      if s.initDone then { s with st := .idle, rspValid := true, rspStatus := 2, rspData := 0 }
      else { s with rspValid := false, st := .initId }
    exec .begin s = .next t ∧ s.busReq = none ∧ (s.initDone = true → t.busReq = none) ∧
    (s.now.rst = false → s.now.cmdValid = true → s.now.cmd = 0x01 → step s = .next t.tick)

/-- R102: the identity check: the request presented, and the step at which the transport answers it. -/
def Obligations.IdentityCheck : Prop :=
  ∀ s : State, s.st = .initId →
    s.busReq = some { we := false, dev := s.params.devAddr, addr := 0x0F, wdata := 0 } ∧
    (s.now.busRspValid = true →
      let t : State :=
        if s.now.busRspRdata = 0xBC then { s with st := .initCtrl }
        else { s with st := .idle, rspValid := true, rspStatus := 1, rspData := 0 }
      exec .begin s = .next t ∧ (s.now.rst = false → step s = .next t.tick))

/-- R103: the CTRL_REG1 write: the request presented, and the step at which the transport answers it. -/
def Obligations.PowerUpWrite : Prop :=
  ∀ s : State, s.st = .initCtrl →
    s.busReq = some { we := true, dev := s.params.devAddr, addr := 0x20, wdata := s.params.ctrlReg1Val } ∧
    (s.now.busRspValid = true →
      let t : State :=
        if s.now.busRspAck then { s with st := .initAvg }
        else { s with st := .idle, rspValid := true, rspStatus := 1, rspData := 0 }
      exec .begin s = .next t ∧ (s.now.rst = false → step s = .next t.tick))

/-- R104: the AV_CONF write: the request presented, and the step at which the transport answers it. -/
def Obligations.AveragingWrite : Prop :=
  ∀ s : State, s.st = .initAvg →
    s.busReq = some { we := true, dev := s.params.devAddr, addr := 0x10, wdata := s.params.avConfVal } ∧
    (s.now.busRspValid = true →
      let t : State :=
        if s.now.busRspAck then { s with calIdx := 0, st := .initCal }
        else { s with st := .idle, rspValid := true, rspStatus := 1, rspData := 0 }
      exec .begin s = .next t ∧ (s.now.rst = false → step s = .next t.tick))

/-- R105, R106: a calibration read captures its byte; the last one completes BEGIN. -/
def Obligations.CalibrationRead : Prop :=
  ∀ s : State, s.st = .initCal → s.now.busRspValid = true →
    s.busReq = some { we := false, dev := s.params.devAddr, addr := calAddr s.calIdx, wdata := 0 } ∧
    let t : State :=
      if s.calIdx.val < 12 then
        { s with cal := capture s.calIdx s.now.busRspRdata s.cal, calIdx := s.calIdx + 1 }
      else
        { s with cal := capture 12 s.now.busRspRdata s.cal, calIdx := 0, initDone := true,
                 st := .idle, rspValid := true, rspStatus := 0, rspData := 0 }
    exec .begin s = .next t ∧ (s.now.rst = false → step s = .next t.tick)

/-- R85: the calibration read table: its addresses, and what each captured byte writes, in masks and shifts. -/
def Obligations.CalibrationTable : Prop :=
  (List.finRange 13).map calAddr = calAddrs ∧
  ∀ (c : CalibrationSet) (b : Byte),
    let low (x : Half) : Half := (x &&& 0xFF00) ||| b.setWidth 16
    let high (x : Half) : Half := (x &&& 0x00FF) ||| (b.setWidth 16 <<< 8)
    capture 0 b c = { c with H0_rH_x2 := b } ∧
    capture 1 b c = { c with H1_rH_x2 := b } ∧
    capture 2 b c = { c with T0_degC_x8 := low c.T0_degC_x8 } ∧
    capture 3 b c = { c with T1_degC_x8 := low c.T1_degC_x8 } ∧
    capture 4 b c = { c with
      T0_degC_x8 := (c.T0_degC_x8 &&& 0x00FF) ||| ((b &&& 3).setWidth 16 <<< 8)
      T1_degC_x8 := (c.T1_degC_x8 &&& 0x00FF) ||| (((b >>> 2) &&& 3).setWidth 16 <<< 8) } ∧
    capture 5 b c = { c with H0_T0_OUT := low c.H0_T0_OUT } ∧
    capture 6 b c = { c with H0_T0_OUT := high c.H0_T0_OUT } ∧
    capture 7 b c = { c with H1_T0_OUT := low c.H1_T0_OUT } ∧
    capture 8 b c = { c with H1_T0_OUT := high c.H1_T0_OUT } ∧
    capture 9 b c = { c with T0_OUT := low c.T0_OUT } ∧
    capture 10 b c = { c with T0_OUT := high c.T0_OUT } ∧
    capture 11 b c = { c with T1_OUT := low c.T1_OUT } ∧
    capture 12 b c = { c with T1_OUT := high c.T1_OUT }

/-- R57, R59: thirteen captures leave the assembly of their bytes, whatever the set held before. -/
def Obligations.IngestionAssemblesCalibration : Prop :=
  ∀ (c : CalibrationSet) (b : Fin 13 → Byte),
    (List.finRange 13).foldl (fun c i => capture i (b i) c) c = calFromBytes b

/-- R100, R106, R110, R244: BEGIN whole. From IDLE and UNINITIALIZED, with the right identity, both writes acknowledged
and thirteen calibration bytes, seventeen steps leave the block INITIALIZED with the CalibrationSet those bytes stand
for and nothing else changed but the response and `cal_idx`; sixteen requests are issued, in R110's order; one response,
(OK, 0), is delivered. That the inputs are a list and are counted is the model's choice (log entry 1). -/
def Obligations.BeginSucceedsInSeventeenSteps : Prop :=
  ∀ (s : State) (b : Fin 13 → Byte) (rest : List Pins),
    s.st = .idle → s.initDone = false →
    s.env = commandPins 0x01 :: answerReadPins 0xBC :: answerWritePins true :: answerWritePins true ::
      ((List.finRange 13).map fun i => answerReadPins (b i)) ++ rest →
    run 17 s = .next { responded s 0 0 with
      initDone := true, calIdx := 0, cal := calFromBytes b, env := rest, clock := s.clock + 17 } ∧
    trace 17 s =
      { requests := readReq s.params 0x0F :: writeReq s.params 0x20 s.params.ctrlReg1Val ::
          writeReq s.params 0x10 s.params.avConfVal :: calAddrs.map (readReq s.params)
        responses := [(0, 0)] }

/-- R107, R110: BEGIN fails at the identity, the first write or the second. It issues the requests of R110's row and no
other, responds (INIT_FAIL, 0), and leaves everything but the response registers as it was: a retry finds the block as
the failed BEGIN did (R109). That the inputs are a list and are counted is the model's choice (log entry 1). -/
def Obligations.BeginFailureChangesOnlyTheResponse : Prop :=
  ∀ (s : State) (b : Byte) (rest : List Pins), s.st = .idle → s.initDone = false →
    (s.env = commandPins 0x01 :: answerReadPins b :: rest → b ≠ 0xBC →
      run 2 s = .next { responded s 1 0 with env := rest, clock := s.clock + 2 } ∧
      trace 2 s = { requests := [readReq s.params 0x0F], responses := [(1, 0)] }) ∧
    (s.env = commandPins 0x01 :: answerReadPins 0xBC :: answerWritePins false :: rest →
      run 3 s = .next { responded s 1 0 with env := rest, clock := s.clock + 3 } ∧
      trace 3 s =
        { requests := [readReq s.params 0x0F, writeReq s.params 0x20 s.params.ctrlReg1Val], responses := [(1, 0)] }) ∧
    (s.env = commandPins 0x01 :: answerReadPins 0xBC :: answerWritePins true :: answerWritePins false :: rest →
      run 4 s = .next { responded s 1 0 with env := rest, clock := s.clock + 4 } ∧
      trace 4 s =
        { requests := [readReq s.params 0x0F, writeReq s.params 0x20 s.params.ctrlReg1Val,
            writeReq s.params 0x10 s.params.avConfVal]
          responses := [(1, 0)] })

/-- R100: what BEGIN's step leaves unchanged, in every state and on every form: the reading's fields, `fault`, the
Interpolator port, the parameters and the inputs; the CalibrationSet but by an answered calibration read; `init_done`
but by the last one. The port's field, the parameters and the inputs are the model's fields (log entries 1 to 3). -/
def Obligations.BeginFrame : Prop :=
  ∀ s t : State, exec .begin s = .next t →
    t.chan = s.chan ∧ t.pollCnt = s.pollCnt ∧ t.rawLo = s.rawLo ∧ t.raw = s.raw ∧ t.fault = s.fault ∧ t.ip = s.ip ∧
    t.params = s.params ∧ t.env = s.env ∧ t.clock = s.clock ∧
    (s.st ≠ .initCal ∨ s.now.busRspValid = false → t.cal = s.cal) ∧
    (s.st ≠ .initCal ∨ s.now.busRspValid = false ∨ s.calIdx ≠ 12 → t.initDone = s.initDone) ∧
    (s.st ≠ .initCal → s.st ≠ .initAvg → t.calIdx = s.calIdx)

/-! ## READ_TEMP and READ_HUM -/

/-- R132: acceptance of a reading, for both commands, as their meanings and as the machine's step. No bus request is
issued when a reading is refused. -/
def Obligations.ReadingAcceptance : Prop :=
  ∀ s : State, s.st = .idle →
    let t (c : Channel) : State :=
      if s.initDone then { s with rspValid := false, chan := c, pollCnt := 0, st := .rdPoll }
      else { s with st := .idle, rspValid := true, rspStatus := 2, rspData := 0 }
    exec .readTemp s = .next (t .temp) ∧ exec .readHum s = .next (t .hum) ∧
    s.busReq = none ∧ (s.initDone = false → (t .temp).busReq = none ∧ (t .hum).busReq = none) ∧
    (s.now.rst = false → s.now.cmdValid = true →
      (s.now.cmd = 0x02 → step s = .next (t .temp).tick) ∧ (s.now.cmd = 0x03 → step s = .next (t .hum).tick))

/-- R133, R136: the data-ready poll of the reading in progress: only the channel's bit ends it; a clear bit polls again
without bound when `POLL_LIMIT` = 0, ends in TIMEOUT at the limit, and counts below it. -/
def Obligations.DataReadyPoll : Prop :=
  ∀ (s : State) (c : Channel), s.st = .rdPoll → s.chan = c → s.now.busRspValid = true →
    s.busReq = some { we := false, dev := s.params.devAddr, addr := 0x27, wdata := 0 } ∧
    let t : State :=
      if s.now.busRspRdata.getLsbD (match c with | .temp => 0 | .hum => 1) then { s with st := .rdOutL }
      else if s.params.pollLimit = 0 then s
      else if s.pollCnt.toNat + 1 = s.params.pollLimit.toNat then
        { s with st := .idle, rspValid := true, rspStatus := 4, rspData := 0 }
      else { s with pollCnt := s.pollCnt + 1 }
    exec (readCommand c) s = .next t ∧ (s.now.rst = false → step s = .next t.tick)

/-- R134, R135, R57: the raw output's two bytes, low first, from the channel's registers. -/
def Obligations.RawOutputBytes : Prop :=
  ∀ (s : State) (c : Channel), s.chan = c → s.now.busRspValid = true →
    (s.st = .rdOutL →
      s.busReq = some
        { we := false, dev := s.params.devAddr, addr := (match c with | .temp => 0x2A | .hum => 0x28), wdata := 0 } ∧
      let t : State := { s with rawLo := s.now.busRspRdata, st := .rdOutH }
      exec (readCommand c) s = .next t ∧ (s.now.rst = false → step s = .next t.tick)) ∧
    (s.st = .rdOutH →
      s.busReq = some
        { we := false, dev := s.params.devAddr, addr := (match c with | .temp => 0x2B | .hum => 0x29), wdata := 0 } ∧
      let t : State := { s with raw := (s.now.busRspRdata.setWidth 16 <<< 8) ||| s.rawLo.setWidth 16, st := .rdConv }
      exec (readCommand c) s = .next t ∧ (s.now.rst = false → step s = .next t.tick))

/-- R137 to R139: the conversion step of a reading: the operands by channel, DIV_ZERO and `fault` on a zero delta, the
Interpolator's result otherwise. No bus request is presented. That the port's outputs stand in a field, `ip`, is the
model's choice (log entry 3). -/
def Obligations.ConversionEndsReading : Prop :=
  ∀ s : State, s.st = .rdConv →
    s.busReq = none ∧
    (s.chan = .temp →
      let o := interp .temp s.raw s.cal.T0_OUT s.cal.T1_OUT (s.cal.T0_degC_x8.setWidth 10) (s.cal.T1_degC_x8.setWidth 10)
      let t : State :=
        if s.cal.T1_OUT = s.cal.T0_OUT then { responded s 3 0 with fault := true, ip := { result := 0, dz := true } }
        else { responded s 0 o.result with ip := o }
      exec .readTemp s = .next t ∧ (s.now.rst = false → step s = .next t.tick)) ∧
    (s.chan = .hum →
      let o := interp .hum s.raw s.cal.H0_T0_OUT s.cal.H1_T0_OUT (s.cal.H0_rH_x2.setWidth 10) (s.cal.H1_rH_x2.setWidth 10)
      let t : State :=
        if s.cal.H1_T0_OUT = s.cal.H0_T0_OUT then { responded s 3 0 with fault := true, ip := { result := 0, dz := true } }
        else { responded s 0 o.result with ip := o }
      exec .readHum s = .next t ∧ (s.now.rst = false → step s = .next t.tick))

/-- R130, R131, R140, R142, R244: a reading whole. From IDLE and INITIALIZED, with any list of status bytes that find
the channel's bit clear (fewer than the limit, if there is one), then one that finds it set, then the two bytes of the
raw output: the reading ends with the conversion of exactly those bytes, whatever earlier readings left; p status reads
and two output reads are issued, in order, and p + 4 steps are taken. That the inputs are a list and are counted is the
model's choice (log entry 1), as is the field `ip` (log entry 3). -/
def Obligations.ReadingFollowsItsProtocol : Prop :=
  ∀ (s : State) (c : Channel) (clear : List Byte) (ready lo hi : Byte) (rest : List Pins),
    s.st = .idle → s.initDone = true →
    (∀ b ∈ clear, dataReady c b = false) → dataReady c ready = true →
    (s.params.pollLimit = 0 ∨ clear.length < s.params.pollLimit.toNat) →
    s.env = commandPins (readWord c) :: (clear.map answerReadPins) ++
      answerReadPins ready :: answerReadPins lo :: answerReadPins hi :: quietPins :: rest →
    let raw := assembleHalf hi lo
    let rsp := readingResponse s.cal c raw
    run (clear.length + 5) s = .next { responded s rsp.1 rsp.2 with
      chan := c
      pollCnt := if s.params.pollLimit = 0 then 0 else BitVec.ofNat 32 clear.length
      rawLo := lo, raw := raw
      ip := interp c raw (s.cal.x0 c) (s.cal.x1 c) (s.cal.y0 c) (s.cal.y1 c)
      fault := s.fault || decide (s.cal.x1 c = s.cal.x0 c)
      env := rest, clock := s.clock + (clear.length + 5) } ∧
    trace (clear.length + 5) s =
      { requests := List.replicate (clear.length + 1) (readReq s.params 0x27) ++
          [readReq s.params (outLAddr c), readReq s.params (outHAddr c)]
        responses := [rsp] }

/-- R136, R142, R205, R244: with `POLL_LIMIT` = N ≥ 1, N status reads that find the bit clear end the reading with
TIMEOUT: N requests, N + 1 steps, `fault` as it was. That the inputs are a list and are counted is the model's choice
(log entry 1). -/
def Obligations.TimeoutAtTheLimit : Prop :=
  ∀ (s : State) (c : Channel) (clear : List Byte) (rest : List Pins),
    s.st = .idle → s.initDone = true → s.params.pollLimit ≠ 0 → clear.length = s.params.pollLimit.toNat →
    (∀ b ∈ clear, dataReady c b = false) →
    s.env = commandPins (readWord c) :: (clear.map answerReadPins) ++ rest →
    run (clear.length + 1) s = .next { responded s 4 0 with
      chan := c, pollCnt := BitVec.ofNat 32 (clear.length - 1)
      env := rest, clock := s.clock + (clear.length + 1) } ∧
    trace (clear.length + 1) s =
      { requests := List.replicate clear.length (readReq s.params 0x27), responses := [(4, 0)] }

/-- R130, R131: what a reading's step leaves unchanged, in every state and on every form: `init_done`, the
CalibrationSet, `cal_idx`, the parameters and the inputs; `chan` but at acceptance; `poll_cnt` but at acceptance or at a
poll; `raw_lo`, `raw`, `fault` and the Interpolator port but at the step that writes each. The port's field, the
parameters and the inputs are the model's fields (log entries 1 to 3). -/
def Obligations.ReadingFrame : Prop :=
  ∀ (c : Channel) (s t : State), exec (readCommand c) s = .next t →
    t.initDone = s.initDone ∧ t.cal = s.cal ∧ t.calIdx = s.calIdx ∧
    t.params = s.params ∧ t.env = s.env ∧ t.clock = s.clock ∧
    (s.st ≠ .idle → t.chan = s.chan) ∧ (s.st ≠ .idle → s.st ≠ .rdPoll → t.pollCnt = s.pollCnt) ∧
    (s.st ≠ .rdOutL → t.rawLo = s.rawLo) ∧ (s.st ≠ .rdOutH → t.raw = s.raw) ∧
    (s.st ≠ .rdConv → t.fault = s.fault ∧ t.ip = s.ip)

/-- R75: a command that is presented while another is in progress changes nothing. That `exec` answers the same state
for it is the model's reading of R75 (log entry 12). -/
def Obligations.WaitingCommandChangesNothing : Prop :=
  ∀ s : State,
    (s.st.inReading = true → exec .begin s = .next s) ∧
    (s.st.inBegin = true → ∀ c, exec (readCommand c) s = .next s) ∧
    (s.st.inReading = true → ∀ c, c ≠ s.chan → exec (readCommand c) s = .next s)

/-! ## The step -/

/-- R10, R75, R76: in IDLE, with no reset, the step runs the presented word's instruction, and time passes; in a bus
state it runs the command in progress. That one `exec` is one Sequencer step of the command is the model's reading (log
entry 12). -/
def Obligations.StepRunsDecodedCommand : Prop :=
  ∀ (s : State) (i : Instr), s.now.rst = false →
    (s.st = .idle → s.now.cmdValid = true → decode (.cmd8 s.now.cmd) = .ok i →
      step s = mapNext State.tick (exec i s)) ∧
    (s.st.inBegin = true → step s = mapNext State.tick (exec .begin s)) ∧
    (s.st.inReading = true → step s = mapNext State.tick (exec (readCommand s.chan) s))

/-- R137: in RD_CONV, with no reset, the step runs the operation that the Interpolator port's signals encode, then ends
the reading (R139), and time passes. The bundle is the model's (log entry 8), and so is the field `ip` between the two
parts of the step (log entry 3). -/
def Obligations.StepRunsDecodedOperation : Prop :=
  ∀ (s : State) (i : Instr), s.now.rst = false → s.st = .rdConv →
    decode (.ipop1 (ipBundle (BitVec.ofBool s.chan.bit) s.raw
      (s.cal.x0 s.chan) (s.cal.x1 s.chan) (s.cal.y0 s.chan) (s.cal.y1 s.chan))) = .ok i →
      step s = mapNext State.tick (mapNext endReading (exec i s))

/-- R74, R203: an illegal word that is accepted is answered with ILLEGAL_CMD in the same step, and nothing else changes. -/
def Obligations.IllegalWordIsRefused : Prop :=
  ∀ s : State, s.now.rst = false → s.st = .idle → s.now.cmdValid = true →
    s.now.cmd ≠ 0x01 → s.now.cmd ≠ 0x02 → s.now.cmd ≠ 0x03 →
      step s = .next { s with
        rspValid := true, rspStatus := 2, rspData := 0, env := s.env.tail, clock := s.clock + 1 }

/-- R230, R231: at a step with `rst` = 1 every field takes its reset value, from any state and whatever else is
presented. -/
def Obligations.ResetWins : Prop :=
  ∀ s : State, s.now.rst = true →
    ∃ t, step s = .next t ∧
      t.initDone = false ∧ t.st = .idle ∧ t.calIdx = 0 ∧ t.chan = .temp ∧ t.pollCnt = 0 ∧ t.rawLo = 0 ∧ t.raw = 0 ∧
      t.cal.H0_rH_x2 = 0 ∧ t.cal.H1_rH_x2 = 0 ∧ t.cal.T0_degC_x8 = 0 ∧ t.cal.T1_degC_x8 = 0 ∧
      t.cal.H0_T0_OUT = 0 ∧ t.cal.H1_T0_OUT = 0 ∧ t.cal.T0_OUT = 0 ∧ t.cal.T1_OUT = 0 ∧
      t.rspValid = false ∧ t.rspStatus = 0 ∧ t.rspData = 0 ∧ t.fault = false ∧
      t.hostOut.cmdReady = true ∧ t.busReqValid = false ∧ t.hostOut.initialized = false ∧ t.hostOut.fault = false

/-- R230, R234, R5: the reset state. The parameters are no state of the spec's (log entry 2), and two of their defaults
are the spec's own general knowledge (log entry 6). -/
def Obligations.ResetState : Prop :=
  State.reset.initDone = false ∧ State.reset.st = .idle ∧ State.reset.calIdx = 0 ∧ State.reset.chan = .temp ∧
  State.reset.pollCnt = 0 ∧ State.reset.rawLo = 0 ∧ State.reset.raw = 0 ∧ State.reset.cal = .zero ∧
  State.reset.rspValid = false ∧ State.reset.rspStatus = 0 ∧ State.reset.rspData = 0 ∧ State.reset.fault = false ∧
  State.reset.params = { devAddr := 0x5F, ctrlReg1Val := 0x85, avConfVal := 0x1B, pollLimit := 0 } ∧
  core.reset = State.reset

/-- R243: an unused state encoding acts at the next step as if `rst` = 1. R243 asks this of an implementation and lets a
model do without it; the model takes it (log entry 10). -/
def Obligations.UnusedEncodingActsAsReset : Prop :=
  ∀ s : State, s.st.isUnused = true →
    step s = .next s.resetStep.tick ∧ 9 ≤ s.st.code.toNat

/-- R10, R53: in a bus state with no answer and no reset the Sequencer holds: nothing changes and the same request stays
presented. So does IDLE with no command. -/
def Obligations.UnansweredRequestHolds : Prop :=
  ∀ s : State, s.now.rst = false →
    (s.busReqValid = true → s.now.busRspValid = false → step s = .next s.tick ∧ s.tick.busReq = s.busReq) ∧
    (s.st = .idle → s.now.cmdValid = false → step s = .next s.tick)

/-- R11, R53: a request that is never answered is a hang: after any number of unanswered steps the machine is where it
was. -/
def Obligations.UnansweredRequestHangs : Prop :=
  ∀ (n : Nat) (s : State), s.busReqValid = true →
    (∀ k < n, (s.pinsAt k).rst = false ∧ (s.pinsAt k).busRspValid = false) →
      run n s = .next (s.elapsed n)

/-- R11, R136: with `POLL_LIMIT` = 0, a data-ready bit that never becomes set is a hang, however often the status is
read. -/
def Obligations.UnboundedPollHangs : Prop :=
  ∀ (n : Nat) (s : State), s.st = .rdPoll → s.params.pollLimit = 0 →
    (∀ k < n, (s.pinsAt k).rst = false ∧
      ((s.pinsAt k).busRspValid = true → dataReady s.chan (s.pinsAt k).busRspRdata = false)) →
      run n s = .next (s.elapsed n)

/-- R75, R232, R81: which inputs a step reads. Outside IDLE the command signals change nothing; outside a bus state an
answer is ignored; a write's answer does not read the data signal, nor a read's the acknowledge. -/
def Obligations.StepReadsOnlyItsInputs : Prop :=
  ∀ (s : State) (p q : Pins) (rest : List Pins), p.rst = q.rst →
    (s.st = .idle → p.cmdValid = q.cmdValid ∧ p.cmd = q.cmd) →
    (s.busReqValid = true → p.busRspValid = q.busRspValid) →
    (∀ r, s.busReq = some r → r.we = false → p.busRspRdata = q.busRspRdata) →
    (∀ r, s.busReq = some r → r.we = true → p.busRspAck = q.busRspAck) →
      step { s with env := p :: rest } = step { s with env := q :: rest }

/-- The machine never stops: from every state, on every input, a step answers a next state; every error is a response
(R200) and every wait a hold (R10). -/
def Obligations.StepAlwaysAnswersNext : Prop :=
  ∀ s : State, ∃ t, step s = .next t

/-- R5, R21: no step changes the construction parameters, and each uses up the inputs of one step. That parameters and
inputs are fields is the model's choice (log entries 1, 2). -/
def Obligations.StepKeepsParameters : Prop :=
  ∀ s t : State, step s = .next t → t.params = s.params ∧ t.env = s.env.tail ∧ t.clock = s.clock + 1

/-! ## Bus requests -/

/-- R81, R83, R84: the request presented in each state. -/
def Obligations.BusRequestTable : Prop :=
  ∀ s : State,
    (s.st = .initId → s.busReq = some { we := false, dev := s.params.devAddr, addr := 0x0F, wdata := 0 }) ∧
    (s.st = .initCtrl → s.busReq = some { we := true, dev := s.params.devAddr, addr := 0x20, wdata := s.params.ctrlReg1Val }) ∧
    (s.st = .initAvg → s.busReq = some { we := true, dev := s.params.devAddr, addr := 0x10, wdata := s.params.avConfVal }) ∧
    (s.st = .initCal → s.busReq = some { we := false, dev := s.params.devAddr, addr := calAddr s.calIdx, wdata := 0 }) ∧
    (s.st = .rdPoll → s.busReq = some { we := false, dev := s.params.devAddr, addr := 0x27, wdata := 0 }) ∧
    (s.st = .rdOutL → s.busReq = some
      { we := false, dev := s.params.devAddr, addr := if s.chan = .temp then 0x2A else 0x28, wdata := 0 }) ∧
    (s.st = .rdOutH → s.busReq = some
      { we := false, dev := s.params.devAddr, addr := if s.chan = .temp then 0x2B else 0x29, wdata := 0 }) ∧
    (s.st = .idle ∨ s.st = .rdConv ∨ s.st.isUnused = true → s.busReq = none)

/-- R54, R55: only the registers of the map are ever addressed, at the one device; only CTRL_REG1 and AV_CONF are
written; 0x34, 0x38 and 0x39 are never read. -/
def Obligations.OnlyMappedRegistersAddressed : Prop :=
  ∀ (s : State) (q : BusReq), s.busReq = some q →
    q.dev = s.params.devAddr ∧ (q.we = true ↔ q.addr = 0x20 ∨ q.addr = 0x10) ∧ (q.we = false → q.wdata = 0) ∧
    q.addr ∈ ([0x0F, 0x10, 0x20, 0x27, 0x28, 0x29, 0x2A, 0x2B] ++ calAddrs : List Byte) ∧
    q.addr ≠ 0x34 ∧ q.addr ≠ 0x38 ∧ q.addr ≠ 0x39

/-! ## Errors and whole-machine rules -/

/-- R200: error entry, for every code that is not OK. -/
def Obligations.ErrorEntry : Prop :=
  ∀ (s : State) (code : Status), code ≠ .ok →
    s.raiseError code = { s with
      rspStatus := code.code, rspData := 0, rspValid := true, st := .idle,
      fault := if code = .divZero then true else s.fault }

/-- R79, R201 to R205, R207: the state in which each status is delivered, and its cause. -/
def Obligations.StatusHasItsCause : Prop :=
  ∀ (s : State) (code : BitVec 3) (data : Word), s.delivered = some (code, data) →
    (code = 0 ∧ (s.st = .initCal ∧ s.calIdx = 12 ∧ data = 0 ∨ s.st = .rdConv ∧ s.cal.zeroDelta s.chan = false)) ∨
    (code = 1 ∧ data = 0 ∧
      (s.st = .initId ∧ s.now.busRspRdata ≠ 0xBC ∨ (s.st = .initCtrl ∨ s.st = .initAvg) ∧ s.now.busRspAck = false)) ∨
    (code = 2 ∧ data = 0 ∧ s.st = .idle ∧
      (s.now.cmd = 0x01 ∧ s.initDone = true ∨ (s.now.cmd = 0x02 ∨ s.now.cmd = 0x03) ∧ s.initDone = false ∨
        s.now.cmd ≠ 0x01 ∧ s.now.cmd ≠ 0x02 ∧ s.now.cmd ≠ 0x03)) ∨
    (code = 3 ∧ data = 0 ∧ s.st = .rdConv ∧ s.cal.zeroDelta s.chan = true) ∨
    (code = 4 ∧ data = 0 ∧ s.st = .rdPoll ∧ dataReady s.chan s.now.busRspRdata = false ∧
      s.params.pollLimit ≠ 0 ∧ s.pollCnt.toNat + 1 = s.params.pollLimit.toNat)

/-- R36 to R38: the response registers are written by responses alone: a step that is no reset and delivers none keeps
`rsp_status` and `rsp_data`, and clears `rsp_valid` only by accepting a command. -/
def Obligations.OnlyResponsesWriteTheResponse : Prop :=
  ∀ s t : State, step s = .next t → s.now.rst = false → s.st.isUnused = false →
    (s.delivered = none →
      t.rspStatus = s.rspStatus ∧ t.rspData = s.rspData ∧
      t.rspValid = (s.rspValid && !(decide (s.st = .idle) && s.now.cmdValid))) ∧
    (∀ code data, s.delivered = some (code, data) → t.rspValid = true ∧ t.rspStatus = code ∧ t.rspData = data)

/-- R23, R106: `init_done` is set only by the answered last calibration read, and cleared only by reset. -/
def Obligations.InitDoneSetOnlyByLastRead : Prop :=
  ∀ s t : State, step s = .next t →
    (s.initDone = false → t.initDone = true →
      s.st = .initCal ∧ s.calIdx = 12 ∧ s.now.busRspValid = true ∧ s.now.rst = false) ∧
    (s.initDone = true → t.initDone = false → s.now.rst = true ∨ s.st.isUnused = true)

/-- R39, R204, R212: `fault` is set exactly by a conversion with a zero delta, and cleared only by reset. -/
def Obligations.FaultIsSticky : Prop :=
  ∀ s t : State, step s = .next t →
    (s.fault = true → t.fault = false → s.now.rst = true ∨ s.st.isUnused = true) ∧
    (s.fault = false → (t.fault = true ↔ s.now.rst = false ∧ s.st = .rdConv ∧ s.cal.zeroDelta s.chan = true))

/-! ## Invariants -/

/-- The reset state meets the invariant. -/
def Obligations.ResetMeetsInvariant : Prop := Invariant State.reset

/-- Every step keeps the invariant, from every state that meets it. -/
def Obligations.StepKeepsInvariant : Prop :=
  ∀ s t : State, Invariant s → step s = .next t → Invariant t

/-- R33, R141: once INITIALIZED, no run without reset writes the CalibrationSet or leaves INITIALIZED. -/
def Obligations.CalibrationIsImmutable : Prop :=
  ∀ (n : Nat) (s t : State), Invariant s → s.initDone = true → (∀ k < n, (s.pinsAt k).rst = false) →
    run n s = .next t → t.cal = s.cal ∧ t.initDone = true

/-- R141: a channel whose delta is zero makes every later conversion of it respond DIV_ZERO, in every run without reset.
(A reading that reaches no conversion, because its poll is bounded and runs out, ends in TIMEOUT instead, R207.) -/
def Obligations.ZeroDeltaFailsEveryConversion : Prop :=
  ∀ (n : Nat) (s t : State) (c : Channel) (data : BitVec 3 × Word),
    Invariant s → s.initDone = true → s.cal.zeroDelta c = true → (∀ k < n, (s.pinsAt k).rst = false) →
    run n s = .next t → t.st = .rdConv → t.chan = c → t.delivered = some data → data = (3, 0)

/-- R13, R78: a program of commands run against any bus script: at every step as many responses have been delivered as
commands accepted, but for the one command in progress; so at its end of run every command has its one response. The
session that joins Host, machine and transport is the model's (log entry 15). -/
def Obligations.OneResponsePerAcceptedCommand : Prop :=
  ∀ (n : Nat) (s : State) (program : List Byte) (script : List BusLine),
    Invariant s → s.st = .idle →
    let x := Session.run n (Session.start s program script)
    x.responses.length + (if x.machine.st = .idle then 0 else 1) = x.accepted ∧
    x.accepted + x.program.length = program.length

/-- R75, R78: one step of a session keeps the balance of responses and commands, and the machine's invariant, from every
session that has them. The session that joins Host, machine and transport is the model's (log entry 15). -/
def Obligations.SessionStepKeepsBalance : Prop :=
  ∀ x : Session, Invariant x.machine → x.balanced = true → Invariant x.step.machine ∧ x.step.balanced = true

/-! ## What is observed -/

/-- R50, R63, R81: the requests issued are the requests answered, in the same order, but for the one still presented: none
is repeated, dropped or overtaken, in any run without reset. (A request that the first state presents was issued before
the run.) -/
def Obligations.RequestsIssuedAreAnsweredInOrder : Prop :=
  ∀ (n : Nat) (s t : State), (∀ k < n, (s.pinsAt k).rst = false) → run n s = .next t →
    s.busReq.toList ++ (trace n s).requests = answeredIn n s ++ t.busReq.toList

/-- R11, R12, R53: BEGIN with a transport that never answers: after any number of silent steps the identity read has been
issued, once, and no response has been delivered. That the inputs are a list is the model's choice (log entry 1). -/
def Obligations.SilentTransportShowsTheRequest : Prop :=
  ∀ (n : Nat) (s : State) (rest : List Pins), s.st = .idle → s.initDone = false →
    s.env = commandPins 0x01 :: List.replicate n quietPins ++ rest →
      trace (n + 1) s = { requests := [readReq s.params 0x0F], responses := [] } ∧ answeredIn (n + 1) s = []

/-- R12, R231, R232: a reset abandons the request presented: it issues none, answers none and delivers no response, and no
request is presented after it. -/
def Obligations.ResetAbandonsTheRequest : Prop :=
  ∀ s : State, s.now.rst = true →
    s.issued = none ∧ s.answered = none ∧ s.delivered = none ∧ ∃ t, step s = .next t ∧ t.busReq = none
end

