-- ==== Sys2Proof/Laws/State.lean ====
section
/-! SUPPORT. What each named update of the state does to each field. -/

namespace Sys2Proof.Machine

open Sys2Proof

variable (s : State)

/-! ## tick -/

@[simp] theorem State.tick_initDone : s.tick.initDone = s.initDone := rfl
@[simp] theorem State.tick_st : s.tick.st = s.st := rfl
@[simp] theorem State.tick_calIdx : s.tick.calIdx = s.calIdx := rfl
@[simp] theorem State.tick_chan : s.tick.chan = s.chan := rfl
@[simp] theorem State.tick_pollCnt : s.tick.pollCnt = s.pollCnt := rfl
@[simp] theorem State.tick_rawLo : s.tick.rawLo = s.rawLo := rfl
@[simp] theorem State.tick_raw : s.tick.raw = s.raw := rfl
@[simp] theorem State.tick_cal : s.tick.cal = s.cal := rfl
@[simp] theorem State.tick_rspValid : s.tick.rspValid = s.rspValid := rfl
@[simp] theorem State.tick_rspStatus : s.tick.rspStatus = s.rspStatus := rfl
@[simp] theorem State.tick_rspData : s.tick.rspData = s.rspData := rfl
@[simp] theorem State.tick_fault : s.tick.fault = s.fault := rfl
@[simp] theorem State.tick_ip : s.tick.ip = s.ip := rfl
@[simp] theorem State.tick_params : s.tick.params = s.params := rfl
@[simp] theorem State.tick_env : s.tick.env = s.env.tail := rfl
@[simp] theorem State.tick_clock : s.tick.clock = s.clock + 1 := rfl

/-! ## accept -/

@[simp] theorem State.accept_initDone : s.accept.initDone = s.initDone := rfl
@[simp] theorem State.accept_st : s.accept.st = s.st := rfl
@[simp] theorem State.accept_calIdx : s.accept.calIdx = s.calIdx := rfl
@[simp] theorem State.accept_chan : s.accept.chan = s.chan := rfl
@[simp] theorem State.accept_pollCnt : s.accept.pollCnt = s.pollCnt := rfl
@[simp] theorem State.accept_rawLo : s.accept.rawLo = s.rawLo := rfl
@[simp] theorem State.accept_raw : s.accept.raw = s.raw := rfl
@[simp] theorem State.accept_cal : s.accept.cal = s.cal := rfl
@[simp] theorem State.accept_rspValid : s.accept.rspValid = false := rfl
@[simp] theorem State.accept_rspStatus : s.accept.rspStatus = s.rspStatus := rfl
@[simp] theorem State.accept_rspData : s.accept.rspData = s.rspData := rfl
@[simp] theorem State.accept_fault : s.accept.fault = s.fault := rfl
@[simp] theorem State.accept_ip : s.accept.ip = s.ip := rfl
@[simp] theorem State.accept_params : s.accept.params = s.params := rfl
@[simp] theorem State.accept_env : s.accept.env = s.env := rfl
@[simp] theorem State.accept_clock : s.accept.clock = s.clock := rfl

/-! ## respond -/

@[simp] theorem State.respond_initDone (c : Status) (d : Word) : (s.respond c d).initDone = s.initDone := rfl
@[simp] theorem State.respond_st (c : Status) (d : Word) : (s.respond c d).st = .idle := rfl
@[simp] theorem State.respond_calIdx (c : Status) (d : Word) : (s.respond c d).calIdx = s.calIdx := rfl
@[simp] theorem State.respond_chan (c : Status) (d : Word) : (s.respond c d).chan = s.chan := rfl
@[simp] theorem State.respond_pollCnt (c : Status) (d : Word) : (s.respond c d).pollCnt = s.pollCnt := rfl
@[simp] theorem State.respond_rawLo (c : Status) (d : Word) : (s.respond c d).rawLo = s.rawLo := rfl
@[simp] theorem State.respond_raw (c : Status) (d : Word) : (s.respond c d).raw = s.raw := rfl
@[simp] theorem State.respond_cal (c : Status) (d : Word) : (s.respond c d).cal = s.cal := rfl
@[simp] theorem State.respond_rspValid (c : Status) (d : Word) : (s.respond c d).rspValid = true := rfl
@[simp] theorem State.respond_rspStatus (c : Status) (d : Word) : (s.respond c d).rspStatus = c.code := rfl
@[simp] theorem State.respond_rspData (c : Status) (d : Word) : (s.respond c d).rspData = d := rfl
@[simp] theorem State.respond_fault (c : Status) (d : Word) : (s.respond c d).fault = s.fault := rfl
@[simp] theorem State.respond_ip (c : Status) (d : Word) : (s.respond c d).ip = s.ip := rfl
@[simp] theorem State.respond_params (c : Status) (d : Word) : (s.respond c d).params = s.params := rfl
@[simp] theorem State.respond_env (c : Status) (d : Word) : (s.respond c d).env = s.env := rfl
@[simp] theorem State.respond_clock (c : Status) (d : Word) : (s.respond c d).clock = s.clock := rfl

/-! ## raiseError -/

@[simp] theorem State.raiseError_initDone (c : Status) : (s.raiseError c).initDone = s.initDone := rfl
@[simp] theorem State.raiseError_st (c : Status) : (s.raiseError c).st = .idle := rfl
@[simp] theorem State.raiseError_calIdx (c : Status) : (s.raiseError c).calIdx = s.calIdx := rfl
@[simp] theorem State.raiseError_chan (c : Status) : (s.raiseError c).chan = s.chan := rfl
@[simp] theorem State.raiseError_pollCnt (c : Status) : (s.raiseError c).pollCnt = s.pollCnt := rfl
@[simp] theorem State.raiseError_rawLo (c : Status) : (s.raiseError c).rawLo = s.rawLo := rfl
@[simp] theorem State.raiseError_raw (c : Status) : (s.raiseError c).raw = s.raw := rfl
@[simp] theorem State.raiseError_cal (c : Status) : (s.raiseError c).cal = s.cal := rfl
@[simp] theorem State.raiseError_rspValid (c : Status) : (s.raiseError c).rspValid = true := rfl
@[simp] theorem State.raiseError_rspStatus (c : Status) : (s.raiseError c).rspStatus = c.code := rfl
@[simp] theorem State.raiseError_rspData (c : Status) : (s.raiseError c).rspData = 0 := rfl
@[simp] theorem State.raiseError_fault (c : Status) : (s.raiseError c).fault = (s.fault || c.recordsFault) := rfl
@[simp] theorem State.raiseError_ip (c : Status) : (s.raiseError c).ip = s.ip := rfl
@[simp] theorem State.raiseError_params (c : Status) : (s.raiseError c).params = s.params := rfl
@[simp] theorem State.raiseError_env (c : Status) : (s.raiseError c).env = s.env := rfl
@[simp] theorem State.raiseError_clock (c : Status) : (s.raiseError c).clock = s.clock := rfl

/-! ## driveIp -/

@[simp] theorem State.driveIp_initDone (o : IpOut) : (s.driveIp o).initDone = s.initDone := rfl
@[simp] theorem State.driveIp_st (o : IpOut) : (s.driveIp o).st = s.st := rfl
@[simp] theorem State.driveIp_calIdx (o : IpOut) : (s.driveIp o).calIdx = s.calIdx := rfl
@[simp] theorem State.driveIp_chan (o : IpOut) : (s.driveIp o).chan = s.chan := rfl
@[simp] theorem State.driveIp_pollCnt (o : IpOut) : (s.driveIp o).pollCnt = s.pollCnt := rfl
@[simp] theorem State.driveIp_rawLo (o : IpOut) : (s.driveIp o).rawLo = s.rawLo := rfl
@[simp] theorem State.driveIp_raw (o : IpOut) : (s.driveIp o).raw = s.raw := rfl
@[simp] theorem State.driveIp_cal (o : IpOut) : (s.driveIp o).cal = s.cal := rfl
@[simp] theorem State.driveIp_rspValid (o : IpOut) : (s.driveIp o).rspValid = s.rspValid := rfl
@[simp] theorem State.driveIp_rspStatus (o : IpOut) : (s.driveIp o).rspStatus = s.rspStatus := rfl
@[simp] theorem State.driveIp_rspData (o : IpOut) : (s.driveIp o).rspData = s.rspData := rfl
@[simp] theorem State.driveIp_fault (o : IpOut) : (s.driveIp o).fault = s.fault := rfl
@[simp] theorem State.driveIp_ip (o : IpOut) : (s.driveIp o).ip = o := rfl
@[simp] theorem State.driveIp_params (o : IpOut) : (s.driveIp o).params = s.params := rfl
@[simp] theorem State.driveIp_env (o : IpOut) : (s.driveIp o).env = s.env := rfl
@[simp] theorem State.driveIp_clock (o : IpOut) : (s.driveIp o).clock = s.clock := rfl

/-! ## withPins -/

@[simp] theorem State.withPins_initDone (p : Pins) : (s.withPins p).initDone = s.initDone := rfl
@[simp] theorem State.withPins_st (p : Pins) : (s.withPins p).st = s.st := rfl
@[simp] theorem State.withPins_calIdx (p : Pins) : (s.withPins p).calIdx = s.calIdx := rfl
@[simp] theorem State.withPins_chan (p : Pins) : (s.withPins p).chan = s.chan := rfl
@[simp] theorem State.withPins_pollCnt (p : Pins) : (s.withPins p).pollCnt = s.pollCnt := rfl
@[simp] theorem State.withPins_rawLo (p : Pins) : (s.withPins p).rawLo = s.rawLo := rfl
@[simp] theorem State.withPins_raw (p : Pins) : (s.withPins p).raw = s.raw := rfl
@[simp] theorem State.withPins_cal (p : Pins) : (s.withPins p).cal = s.cal := rfl
@[simp] theorem State.withPins_rspValid (p : Pins) : (s.withPins p).rspValid = s.rspValid := rfl
@[simp] theorem State.withPins_rspStatus (p : Pins) : (s.withPins p).rspStatus = s.rspStatus := rfl
@[simp] theorem State.withPins_rspData (p : Pins) : (s.withPins p).rspData = s.rspData := rfl
@[simp] theorem State.withPins_fault (p : Pins) : (s.withPins p).fault = s.fault := rfl
@[simp] theorem State.withPins_ip (p : Pins) : (s.withPins p).ip = s.ip := rfl
@[simp] theorem State.withPins_params (p : Pins) : (s.withPins p).params = s.params := rfl
@[simp] theorem State.withPins_env (p : Pins) : (s.withPins p).env = p :: s.env := rfl
@[simp] theorem State.withPins_clock (p : Pins) : (s.withPins p).clock = s.clock := rfl

/-! ## resetStep -/

@[simp] theorem State.resetStep_initDone : s.resetStep.initDone = false := rfl
@[simp] theorem State.resetStep_st : s.resetStep.st = .idle := rfl
@[simp] theorem State.resetStep_calIdx : s.resetStep.calIdx = 0 := rfl
@[simp] theorem State.resetStep_chan : s.resetStep.chan = .temp := rfl
@[simp] theorem State.resetStep_pollCnt : s.resetStep.pollCnt = 0 := rfl
@[simp] theorem State.resetStep_rawLo : s.resetStep.rawLo = 0 := rfl
@[simp] theorem State.resetStep_raw : s.resetStep.raw = 0 := rfl
@[simp] theorem State.resetStep_cal : s.resetStep.cal = .zero := rfl
@[simp] theorem State.resetStep_rspValid : s.resetStep.rspValid = false := rfl
@[simp] theorem State.resetStep_rspStatus : s.resetStep.rspStatus = 0 := rfl
@[simp] theorem State.resetStep_rspData : s.resetStep.rspData = 0 := rfl
@[simp] theorem State.resetStep_fault : s.resetStep.fault = false := rfl
@[simp] theorem State.resetStep_ip : s.resetStep.ip = { result := 0, dz := false } := rfl
@[simp] theorem State.resetStep_params : s.resetStep.params = s.params := rfl
@[simp] theorem State.resetStep_env : s.resetStep.env = s.env := rfl
@[simp] theorem State.resetStep_clock : s.resetStep.clock = s.clock := rfl

/-! ## The inputs of a step -/

@[simp] theorem State.now_cons (p : Pins) (l : List Pins) (h : s.env = p :: l) : s.now = p := by simp [State.now, h]

theorem State.now_nil (h : s.env = []) : s.now = Config.freePins s.clock := by simp [State.now, h]

@[simp] theorem State.withPins_now (p : Pins) : (s.withPins p).now = p := rfl

/-- The inputs depend on the environment's fields alone. -/
theorem State.now_congr {s t : State} (he : s.env = t.env) (hc : s.clock = t.clock) : s.now = t.now := by
  simp [State.now, he, hc]

end Sys2Proof.Machine
end

