-- ==== Sys2Proof/Laws/Ops.lean ====
section
/-! SUPPORT. One lemma for each shared operation that says what it can do, and for each way a step can go. -/

namespace Sys2Proof.Machine

open Sys2Proof

variable {s : State}

/-! ## Taking an answer -/

/-- A read is answered with the byte on the bus, or the Sequencer holds. -/
theorem onRead_cases (take : Byte → State) :
    (s.now.busRspValid = true ∧ s.onRead take = take s.now.busRspRdata) ∨
    (s.now.busRspValid = false ∧ s.onRead take = s) := by
  unfold State.onRead; cases s.now.busRspValid <;> simp

/-- A write is answered with the acknowledge on the bus, or the Sequencer holds. -/
theorem onWrite_cases (take : Bool → State) :
    (s.now.busRspValid = true ∧ s.onWrite take = take s.now.busRspAck) ∨
    (s.now.busRspValid = false ∧ s.onWrite take = s) := by
  unfold State.onWrite; cases s.now.busRspValid <;> simp

/-! ## Outcomes -/

@[simp] theorem mapNext_next (f : State → State) (t : State) : mapNext f (.next t) = .next (f t) := rfl

/-- An outcome changed by `mapNext` is a next state only if the outcome was. -/
theorem mapNext_eq_next {f : State → State} {o : Result} {t : State} (h : mapNext f o = .next t) :
    ∃ u, o = .next u ∧ t = f u := by
  cases o with
  | next u => exact ⟨u, rfl, by simpa [mapNext] using h.symm⟩
  | fault r => cases h
  | refused r => cases h

/-! ## What a step does, by what is fetched -/

theorem step_of_reset (h : s.fetch = .reset) : step s = .next s.resetStep.tick := by
  simp [step, fullStep, sequencerStep, h]

theorem step_of_hold (h : s.fetch = .hold) : step s = .next s.tick := by
  simp [step, fullStep, sequencerStep, h]

theorem step_of_illegal (h : s.fetch = .illegal) : step s = .next s.illegalCommand.tick := by
  simp [step, fullStep, sequencerStep, h]

theorem step_of_command {i : Instr} (h : s.fetch = .command i) : step s = mapNext State.tick (exec i s) := by
  simp [step, fullStep, sequencerStep, h]

theorem step_of_operation {i : Instr} (h : s.fetch = .operation i) :
    step s = mapNext State.tick (mapNext endReading (exec i s)) := by
  simp [step, fullStep, sequencerStep, h]

/-- The operation a conversion drives has the Interpolator's outputs for the channel's operands (R137, R138). -/
theorem exec_conversion (s : State) :
    exec s.conversion s = .next (s.driveIp s.ipOutputs) := by
  unfold State.conversion State.ipOutputs
  cases s.chan <;> rfl

/-! ## What is fetched, by the Sequencer's state -/

theorem fetch_reset (h : s.now.rst = true) : s.fetch = .reset := by simp [State.fetch, h]

theorem fetch_begin (h : s.now.rst = false) (hs : s.st = .initId ∨ s.st = .initCtrl ∨ s.st = .initAvg ∨ s.st = .initCal) :
    s.fetch = .command .begin := by
  rcases hs with hs | hs | hs | hs <;> simp [State.fetch, h, hs]

theorem fetch_reading (h : s.now.rst = false) (hs : s.st = .rdPoll ∨ s.st = .rdOutL ∨ s.st = .rdOutH) :
    s.fetch = .command (readCommand s.chan) := by
  rcases hs with hs | hs | hs <;> simp [State.fetch, h, hs]

theorem fetch_conversion (h : s.now.rst = false) (hs : s.st = .rdConv) : s.fetch = .operation s.conversion := by
  simp [State.fetch, h, hs]

theorem fetch_unused {k : Fin 7} (hs : s.st = .unused k) : s.fetch = .reset := by
  unfold State.fetch; cases s.now.rst <;> simp [hs]

theorem fetch_accepted {i : Instr} (h : s.now.rst = false) (hs : s.st = .idle) (hv : s.now.cmdValid = true)
    (hd : decodeCmd s.now.cmd = .ok i) : s.fetch = .command i := by
  simp [State.fetch, h, hs, hv, hd]

theorem fetch_idle (h : s.now.rst = false) (hs : s.st = .idle) (hv : s.now.cmdValid = false) : s.fetch = .hold := by
  simp [State.fetch, h, hs, hv]

/-! ## The pieces of a meaning -/

/-- A poll answered with the bit clear goes on, ends in TIMEOUT, or counts (R136). -/
theorem pollAgain_cases (s : State) :
    (s.params.pollLimit = 0 ∧ pollAgain s = s) ∨
    (s.params.pollLimit ≠ 0 ∧ s.pollCnt.toNat + 1 = s.params.pollLimit.toNat ∧ pollAgain s = s.raiseError .timeout) ∨
    (s.params.pollLimit ≠ 0 ∧ s.pollCnt.toNat + 1 ≠ s.params.pollLimit.toNat ∧
      pollAgain s = { s with pollCnt := s.pollCnt + 1 }) := by
  unfold pollAgain
  split_ifs with h1 h2
  · exact .inl ⟨h1, rfl⟩
  · exact .inr (.inl ⟨h1, h2, rfl⟩)
  · exact .inr (.inr ⟨h1, h2, rfl⟩)

/-- The zero divisor is reported exactly when the two points are one (R165). -/
theorem interp_dz (op : Channel) (raw x0 x1 : Half) (y0 y1 : Code) :
    (interp op raw x0 x1 y0 y1).dz = decide (x1 = x0) := by
  have h : subtractorC x0 x1 = 0 ↔ x1 = x0 := by
    unfold subtractorC
    constructor
    · intro h; exact BitVec.eq_of_toInt_eq (by omega)
    · rintro rfl; omega
  unfold interp
  split_ifs with hz
  · simp [h.mp hz]
  · simp [mt h.mpr hz]

/-- R7's terms of truncating division give the quotient rounded toward minus infinity. -/
theorem floordiv_eq_fdiv (n d : Int) (hd : d ≠ 0) : floordiv n d = n.fdiv d := by
  have hm : n.tmod d ≠ 0 ↔ ¬ d ∣ n := not_congr Int.dvd_iff_tmod_eq_zero.symm
  unfold floordiv
  rw [Int.fdiv_eq_tdiv]
  by_cases hdv : d ∣ n
  · have h0 : n.tmod d = 0 := by by_contra h; exact hm.mp h hdv
    simp [hdv, h0]
  · have h1 : n.tmod d ≠ 0 := hm.mpr hdv
    have hs : (d < 0 → d.sign = -1) ∧ (0 ≤ d → d.sign = 1) :=
      ⟨Int.sign_eq_neg_one_of_neg, fun h => Int.sign_eq_one_of_pos (lt_of_le_of_ne h hd.symm)⟩
    rcases lt_or_ge n 0 with hn | hn <;> rcases lt_or_ge d 0 with hd' | hd' <;>
      simp [hdv, h1, hn, hd', hs, not_le.mpr, not_lt.mpr]

end Sys2Proof.Machine
end

