-- ==== Sys2Proof/Laws/PerInstr.lean ====
section
/-! SUPPORT. The statement made for each instruction: its encoding carries the fixed bits of its row in
spec/opcode_table.json. -/

namespace Sys2Proof.Laws.TableRow

open Sys2Proof

/-- The instruction is well formed, and its word on its port has the row's `match` under the row's `mask` (R73, R87). -/
def Statement (i : Instr) : Prop :=
  i.wf = true ∧
  match i, encode i with
  | .begin, .cmd8 w => w &&& 0xFF = 0x01
  | .readTemp, .cmd8 w => w &&& 0xFF = 0x02
  | .readHum, .cmd8 w => w &&& 0xFF = 0x03
  | .interpTemp _ _ _ _ _, .ipop1 p => p.extractLsb' 0 1 = 0
  | .interpHum _ _ _ _ _, .ipop1 p => p.extractLsb' 0 1 = 1
  | .begin, .ipop1 _ => False
  | .readTemp, .ipop1 _ => False
  | .readHum, .ipop1 _ => False
  | .interpTemp _ _ _ _ _, .cmd8 _ => False
  | .interpHum _ _ _ _ _, .cmd8 _ => False

/-- Bit 0 of the port's bundle is `ip_op`. -/
theorem ipBundle_op (op : BitVec 1) (raw x0 x1 : Half) (y0 y1 : Code) :
    (ipBundle op raw x0 x1 y0 y1).extractLsb' 0 1 = op := by
  unfold ipBundle
  rw [BitVec.extractLsb'_append_eq_of_add_le (by omega)]
  simp

theorem begin : Statement .begin := ⟨rfl, rfl⟩

theorem readTemp : Statement .readTemp := ⟨rfl, rfl⟩

theorem readHum : Statement .readHum := ⟨rfl, rfl⟩

theorem interpTemp (raw x0 x1 : Half) (y0 y1 : Code) : Statement (.interpTemp raw x0 x1 y0 y1) :=
  ⟨rfl, ipBundle_op 0 raw x0 x1 y0 y1⟩

theorem interpHum (raw x0 x1 : Half) (y0 y1 : Code) : Statement (.interpHum raw x0 x1 y0 y1) :=
  ⟨rfl, ipBundle_op 1 raw x0 x1 y0 y1⟩

end Sys2Proof.Laws.TableRow
end

