-- ==== Sys2Proof/Laws/Step.lean ====
section
/-! SUPPORT. The inversion lemma of the step: everything a step can do, said once. -/

namespace Sys2Proof.Machine

open Sys2Proof

/-- What the Sequencer can make of `s` at one step, before time passes, with the guard of each way: reset; nothing; an
acceptance, refused or not; one outcome of the step rule of the command in progress. -/
inductive Transition (s : State) : State → Prop where
  | reset (why : s.now.rst = true ∨ ∃ k, s.st = .unused k) (hf : s.fetch = .reset) : Transition s s.resetStep
  | noCommand (hr : s.now.rst = false) (hs : s.st = .idle) (hv : s.now.cmdValid = false) (hf : s.fetch = .hold) :
      Transition s s
  | unanswered (i : Instr) (hr : s.now.rst = false) (hb : s.busReqValid = true) (hs : s.st ≠ .idle ∧ s.st ≠ .rdConv)
      (hv : s.now.busRspValid = false) (hf : s.fetch = .command i) : Transition s s
  | illegalWord (hr : s.now.rst = false) (hs : s.st = .idle) (hv : s.now.cmdValid = true)
      (hw : s.now.cmd ≠ 1 ∧ s.now.cmd ≠ 2 ∧ s.now.cmd ≠ 3) (hf : s.fetch = .illegal) :
      Transition s (s.accept.raiseError .illegalCmd)
  | beginRefused (hr : s.now.rst = false) (hs : s.st = .idle) (hv : s.now.cmdValid = true) (hw : s.now.cmd = 1)
      (hi : s.initDone = true) (hf : s.fetch = .command .begin) : Transition s (s.accept.raiseError .illegalCmd)
  | beginAccepted (hr : s.now.rst = false) (hs : s.st = .idle) (hv : s.now.cmdValid = true) (hw : s.now.cmd = 1)
      (hi : s.initDone = false) (hf : s.fetch = .command .begin) : Transition s { s.accept with st := .initId }
  | readRefused (c : Channel) (hr : s.now.rst = false) (hs : s.st = .idle) (hv : s.now.cmdValid = true)
      (hw : s.now.cmd = readWord c) (hi : s.initDone = false) (hf : s.fetch = .command (readCommand c)) :
      Transition s (s.accept.raiseError .illegalCmd)
  | readAccepted (c : Channel) (hr : s.now.rst = false) (hs : s.st = .idle) (hv : s.now.cmdValid = true)
      (hw : s.now.cmd = readWord c) (hi : s.initDone = true) (hf : s.fetch = .command (readCommand c)) :
      Transition s { s.accept with chan := c, pollCnt := 0, st := .rdPoll }
  | identityRight (hr : s.now.rst = false) (hs : s.st = .initId) (hv : s.now.busRspValid = true)
      (hb : s.now.busRspRdata = 0xBC) (hf : s.fetch = .command .begin) : Transition s { s with st := .initCtrl }
  | identityWrong (hr : s.now.rst = false) (hs : s.st = .initId) (hv : s.now.busRspValid = true)
      (hb : s.now.busRspRdata ≠ 0xBC) (hf : s.fetch = .command .begin) : Transition s (s.raiseError .initFail)
  | ctrlAck (hr : s.now.rst = false) (hs : s.st = .initCtrl) (hv : s.now.busRspValid = true)
      (ha : s.now.busRspAck = true) (hf : s.fetch = .command .begin) : Transition s { s with st := .initAvg }
  | ctrlNak (hr : s.now.rst = false) (hs : s.st = .initCtrl) (hv : s.now.busRspValid = true)
      (ha : s.now.busRspAck = false) (hf : s.fetch = .command .begin) : Transition s (s.raiseError .initFail)
  | avgAck (hr : s.now.rst = false) (hs : s.st = .initAvg) (hv : s.now.busRspValid = true)
      (ha : s.now.busRspAck = true) (hf : s.fetch = .command .begin) :
      Transition s { s with calIdx := 0, st := .initCal }
  | avgNak (hr : s.now.rst = false) (hs : s.st = .initAvg) (hv : s.now.busRspValid = true)
      (ha : s.now.busRspAck = false) (hf : s.fetch = .command .begin) : Transition s (s.raiseError .initFail)
  | calRead (hr : s.now.rst = false) (hs : s.st = .initCal) (hv : s.now.busRspValid = true) (hi : s.calIdx.val < 12)
      (hf : s.fetch = .command .begin) :
      Transition s { s with cal := capture s.calIdx s.now.busRspRdata s.cal, calIdx := ⟨s.calIdx.val + 1, by omega⟩ }
  | calLast (hr : s.now.rst = false) (hs : s.st = .initCal) (hv : s.now.busRspValid = true) (hi : s.calIdx = 12)
      (hf : s.fetch = .command .begin) :
      Transition s
        (State.respond { s with cal := capture 12 s.now.busRspRdata s.cal, calIdx := 0, initDone := true } .ok 0)
  | pollReady (hr : s.now.rst = false) (hs : s.st = .rdPoll) (hv : s.now.busRspValid = true)
      (hd : dataReady s.chan s.now.busRspRdata = true) (hf : s.fetch = .command (readCommand s.chan)) :
      Transition s { s with st := .rdOutL }
  | pollUnbounded (hr : s.now.rst = false) (hs : s.st = .rdPoll) (hv : s.now.busRspValid = true)
      (hd : dataReady s.chan s.now.busRspRdata = false) (hl : s.params.pollLimit = 0)
      (hf : s.fetch = .command (readCommand s.chan)) : Transition s s
  | pollTimeout (hr : s.now.rst = false) (hs : s.st = .rdPoll) (hv : s.now.busRspValid = true)
      (hd : dataReady s.chan s.now.busRspRdata = false) (hl : s.params.pollLimit ≠ 0)
      (hn : s.pollCnt.toNat + 1 = s.params.pollLimit.toNat) (hf : s.fetch = .command (readCommand s.chan)) :
      Transition s (s.raiseError .timeout)
  | pollCounted (hr : s.now.rst = false) (hs : s.st = .rdPoll) (hv : s.now.busRspValid = true)
      (hd : dataReady s.chan s.now.busRspRdata = false) (hl : s.params.pollLimit ≠ 0)
      (hn : s.pollCnt.toNat + 1 ≠ s.params.pollLimit.toNat) (hf : s.fetch = .command (readCommand s.chan)) :
      Transition s { s with pollCnt := s.pollCnt + 1 }
  | outLow (hr : s.now.rst = false) (hs : s.st = .rdOutL) (hv : s.now.busRspValid = true)
      (hf : s.fetch = .command (readCommand s.chan)) :
      Transition s { s with rawLo := s.now.busRspRdata, st := .rdOutH }
  | outHigh (hr : s.now.rst = false) (hs : s.st = .rdOutH) (hv : s.now.busRspValid = true)
      (hf : s.fetch = .command (readCommand s.chan)) :
      Transition s { s with raw := assembleHalf s.now.busRspRdata s.rawLo, st := .rdConv }
  | converted (hr : s.now.rst = false) (hs : s.st = .rdConv) (hz : s.cal.x1 s.chan ≠ s.cal.x0 s.chan)
      (hf : s.fetch = .operation s.conversion) :
      Transition s ((s.driveIp s.ipOutputs).respond .ok s.ipOutputs.result)
  | zeroDelta (hr : s.now.rst = false) (hs : s.st = .rdConv) (hz : s.cal.x1 s.chan = s.cal.x0 s.chan)
      (hf : s.fetch = .operation s.conversion) :
      Transition s ((s.driveIp s.ipOutputs).raiseError .divZero)

/-- A word that is no command's is illegal (R74). -/
theorem decodeCmd_illegal (w : Byte) (h1 : w ≠ 1) (h2 : w ≠ 2) (h3 : w ≠ 3) :
    decodeCmd w = .error (.illegalCommand w) := by
  revert w; decide

/-- The meaning of a reading command is its step. -/
theorem exec_readCommand (c : Channel) (s : State) : exec (readCommand c) s = .next (readStep c s) := by
  cases c <;> rfl

/-! ## The step rules, by outcome -/

section
variable {s : State} (hr : s.now.rst = false)
include hr

theorem transition_initId (hs : s.st = .initId) : Transition s (initIdStep s) := by
  have hf := fetch_begin hr (.inl hs)
  unfold initIdStep
  rcases onRead_cases (s := s) (fun b => if b = Config.whoAmI then { s with st := .initCtrl } else s.raiseError .initFail)
    with ⟨hv, h⟩ | ⟨hv, h⟩ <;> rw [h]
  · split_ifs with hb
    · exact .identityRight hr hs hv hb hf
    · exact .identityWrong hr hs hv hb hf
  · exact .unanswered _ hr (by simp [State.busReqValid, State.busReq, hs]) (by simp [hs]) hv hf

theorem transition_initCtrl (hs : s.st = .initCtrl) : Transition s (initCtrlStep s) := by
  have hf := fetch_begin hr (.inr (.inl hs))
  unfold initCtrlStep
  rcases onWrite_cases (s := s) (fun ack => if ack then { s with st := .initAvg } else s.raiseError .initFail)
    with ⟨hv, h⟩ | ⟨hv, h⟩ <;> rw [h]
  · split_ifs with ha
    · exact .ctrlAck hr hs hv ha hf
    · exact .ctrlNak hr hs hv (by simpa using ha) hf
  · exact .unanswered _ hr (by simp [State.busReqValid, State.busReq, hs]) (by simp [hs]) hv hf

theorem transition_initAvg (hs : s.st = .initAvg) : Transition s (initAvgStep s) := by
  have hf := fetch_begin hr (.inr (.inr (.inl hs)))
  unfold initAvgStep
  rcases onWrite_cases (s := s)
    (fun ack => if ack then { s with calIdx := 0, st := .initCal } else s.raiseError .initFail)
    with ⟨hv, h⟩ | ⟨hv, h⟩ <;> rw [h]
  · split_ifs with ha
    · exact .avgAck hr hs hv ha hf
    · exact .avgNak hr hs hv (by simpa using ha) hf
  · exact .unanswered _ hr (by simp [State.busReqValid, State.busReq, hs]) (by simp [hs]) hv hf

theorem transition_initCal (hs : s.st = .initCal) : Transition s (initCalStep s) := by
  have hf := fetch_begin hr (.inr (.inr (.inr hs)))
  rcases hv : s.now.busRspValid with _ | _
  · simp only [initCalStep, State.onRead, hv]
    exact .unanswered _ hr (by simp [State.busReqValid, State.busReq, hs]) (by simp [hs]) hv hf
  · simp only [initCalStep, State.onRead, hv, if_true]
    split_ifs with hi
    · exact .calRead hr hs hv hi hf
    · have h12 : s.calIdx = 12 := Fin.ext (by simp; omega)
      rw [h12]
      exact .calLast hr hs hv h12 hf

theorem transition_rdPoll (hs : s.st = .rdPoll) : Transition s (rdPollStep s) := by
  have hf := fetch_reading hr (.inl hs)
  unfold rdPollStep
  rcases onRead_cases (s := s) (fun b => if dataReady s.chan b then { s with st := .rdOutL } else pollAgain s)
    with ⟨hv, h⟩ | ⟨hv, h⟩ <;> rw [h]
  · split_ifs with hd
    · exact .pollReady hr hs hv hd hf
    · have hd' : dataReady s.chan s.now.busRspRdata = false := by simpa using hd
      rcases pollAgain_cases s with ⟨hl, h⟩ | ⟨hl, hn, h⟩ | ⟨hl, hn, h⟩ <;> rw [h]
      · exact .pollUnbounded hr hs hv hd' hl hf
      · exact .pollTimeout hr hs hv hd' hl hn hf
      · exact .pollCounted hr hs hv hd' hl hn hf
  · exact .unanswered _ hr (by simp [State.busReqValid, State.busReq, hs]) (by simp [hs]) hv hf

theorem transition_rdOutL (hs : s.st = .rdOutL) : Transition s (rdOutLStep s) := by
  have hf := fetch_reading hr (.inr (.inl hs))
  unfold rdOutLStep
  rcases onRead_cases (s := s) (fun b => { s with rawLo := b, st := .rdOutH }) with ⟨hv, h⟩ | ⟨hv, h⟩ <;> rw [h]
  · exact .outLow hr hs hv hf
  · exact .unanswered _ hr (by simp [State.busReqValid, State.busReq, hs]) (by simp [hs]) hv hf

theorem transition_rdOutH (hs : s.st = .rdOutH) : Transition s (rdOutHStep s) := by
  have hf := fetch_reading hr (.inr (.inr hs))
  unfold rdOutHStep
  rcases onRead_cases (s := s) (fun b => { s with raw := assembleHalf b s.rawLo, st := .rdConv })
    with ⟨hv, h⟩ | ⟨hv, h⟩ <;> rw [h]
  · exact .outHigh hr hs hv hf
  · exact .unanswered _ hr (by simp [State.busReqValid, State.busReq, hs]) (by simp [hs]) hv hf

theorem transition_rdConv (hs : s.st = .rdConv) : Transition s (rdConvStep s) := by
  have hf := fetch_conversion hr hs
  unfold rdConvStep endReading
  by_cases hz : s.cal.x1 s.chan = s.cal.x0 s.chan
  · rw [if_pos (by simp [State.ipOutputs, interp_dz, hz])]
    exact .zeroDelta hr hs hz hf
  · rw [if_neg (by simp [State.ipOutputs, interp_dz, hz])]
    exact .converted hr hs hz hf

theorem transition_beginAccept (hs : s.st = .idle) (hv : s.now.cmdValid = true) (hw : s.now.cmd = 1)
    (hf : s.fetch = .command .begin) : Transition s (beginAccept s) := by
  unfold beginAccept
  split_ifs with hi
  · exact .beginRefused hr hs hv hw hi hf
  · exact .beginAccepted hr hs hv hw (by simpa using hi) hf

theorem transition_readAccept (c : Channel) (hs : s.st = .idle) (hv : s.now.cmdValid = true)
    (hw : s.now.cmd = readWord c) (hf : s.fetch = .command (readCommand c)) : Transition s (readAccept c s) := by
  unfold readAccept
  split_ifs with hi
  · exact .readAccepted c hr hs hv hw hi hf
  · exact .readRefused c hr hs hv hw (by simpa using hi) hf

end

/-- Every step is one of the transitions, and time passes. -/
theorem step_transition {s t : State} (h : step s = .next t) : ∃ u, Transition s u ∧ t = u.tick := by
  rcases hr : s.now.rst with _ | _
  · cases hs : s.st with
    | idle =>
      rcases hv : s.now.cmdValid with _ | _
      · have hf := fetch_idle hr hs hv
        rw [step_of_hold hf] at h
        exact ⟨s, .noCommand hr hs hv hf, by simpa using h.symm⟩
      · by_cases h1 : s.now.cmd = 1
        · have hf := fetch_accepted hr hs hv (i := .begin) (by rw [h1]; rfl)
          rw [step_of_command hf] at h
          exact ⟨_, transition_beginAccept hr hs hv h1 hf, by simpa [exec, execBegin, beginStep, hs] using h.symm⟩
        by_cases h2 : s.now.cmd = 2
        · have hf := fetch_accepted hr hs hv (i := .readTemp) (by rw [h2]; rfl)
          rw [step_of_command hf] at h
          exact ⟨_, transition_readAccept hr .temp hs hv h2 hf, by simpa [exec, execReadTemp, readStep, hs] using h.symm⟩
        by_cases h3 : s.now.cmd = 3
        · have hf := fetch_accepted hr hs hv (i := .readHum) (by rw [h3]; rfl)
          rw [step_of_command hf] at h
          exact ⟨_, transition_readAccept hr .hum hs hv h3 hf, by simpa [exec, execReadHum, readStep, hs] using h.symm⟩
        have hf : s.fetch = .illegal := by simp [State.fetch, hr, hs, hv, decodeCmd_illegal _ h1 h2 h3]
        rw [step_of_illegal hf] at h
        exact ⟨_, .illegalWord hr hs hv ⟨h1, h2, h3⟩ hf, by simpa [State.illegalCommand] using h.symm⟩
    | initId =>
      rw [step_of_command (fetch_begin hr (.inl hs))] at h
      exact ⟨_, transition_initId hr hs, by simpa [exec, execBegin, beginStep, hs] using h.symm⟩
    | initCtrl =>
      rw [step_of_command (fetch_begin hr (.inr (.inl hs)))] at h
      exact ⟨_, transition_initCtrl hr hs, by simpa [exec, execBegin, beginStep, hs] using h.symm⟩
    | initAvg =>
      rw [step_of_command (fetch_begin hr (.inr (.inr (.inl hs))))] at h
      exact ⟨_, transition_initAvg hr hs, by simpa [exec, execBegin, beginStep, hs] using h.symm⟩
    | initCal =>
      rw [step_of_command (fetch_begin hr (.inr (.inr (.inr hs))))] at h
      exact ⟨_, transition_initCal hr hs, by simpa [exec, execBegin, beginStep, hs] using h.symm⟩
    | rdPoll =>
      rw [step_of_command (fetch_reading hr (.inl hs)), exec_readCommand] at h
      exact ⟨_, transition_rdPoll hr hs, by simpa [readStep, hs] using h.symm⟩
    | rdOutL =>
      rw [step_of_command (fetch_reading hr (.inr (.inl hs))), exec_readCommand] at h
      exact ⟨_, transition_rdOutL hr hs, by simpa [readStep, hs] using h.symm⟩
    | rdOutH =>
      rw [step_of_command (fetch_reading hr (.inr (.inr hs))), exec_readCommand] at h
      exact ⟨_, transition_rdOutH hr hs, by simpa [readStep, hs] using h.symm⟩
    | rdConv =>
      rw [step_of_operation (fetch_conversion hr hs), exec_conversion] at h
      exact ⟨_, transition_rdConv hr hs, by simpa [rdConvStep] using h.symm⟩
    | unused k =>
      have hf := fetch_unused hs
      rw [step_of_reset hf] at h
      exact ⟨_, .reset (.inr ⟨k, hs⟩) hf, by simpa using h.symm⟩
  · have hf := fetch_reset hr
    rw [step_of_reset hf] at h
    exact ⟨_, .reset (.inl hr) hf, by simpa using h.symm⟩

/-! ## What a step shows -/

/-- A step issues the request its next state presents if it is a Sequencer step, and none otherwise (R12, R81). -/
theorem issued_of_next {s t : State} (h : step s = .next t) : s.issued = if s.advances then t.busReq else none := by
  simp [State.issued, h]

/-- A step delivers the response registers of its next state if it is a Sequencer step that ends in IDLE (R78). -/
theorem delivered_of_next {s t : State} (h : step s = .next t) :
    s.delivered = if s.advances && decide (t.st = .idle) then some (t.rspStatus, t.rspData) else none := by
  simp [State.delivered, h]

end Sys2Proof.Machine
end

