-- ==== Sys2Proof/Tests/Slice0.lean ====
section
/-! SUPPORT. Tests: smoke tests of the well-formedness checks, words decoded, one step each of the spec's vectors
(spec/95_test_vectors.md), and for each statement with hypotheses a state and operands that meet them. -/

namespace Sys2Proof.Tests

open Sys2Proof Sys2Proof.Machine

/-! ## Helpers -/

/-- The reset state in a Sequencer state, with the inputs of its next step. -/
def inState (st : St) (p : Pins) : State := { State.reset with st := st, env := [p] }

/-- The CalibrationSet of program P1. -/
def calP1 : CalibrationSet :=
  { H0_rH_x2 := 40, H1_rH_x2 := 160, T0_degC_x8 := 160, T1_degC_x8 := 400,
    H0_T0_OUT := 0, H1_T0_OUT := 1000, T0_OUT := 0, T1_OUT := 1000 }

/-- An INITIALIZED machine in a Sequencer state. -/
def ready (st : St) (p : Pins) : State := { inState st p with initDone := true, cal := calP1 }

/-- The state an outcome answers, or else the state given. -/
def nextOf (o : Result) (s : State) : State :=
  match o with
  | .next t => t
  | .fault _ => s
  | .refused _ => s

/-- The outputs of the Interpolator port after an operation. -/
def outputsOf (i : Instr) : IpOut := (nextOf (exec i State.reset) State.reset).ip

/-! ## Well-formedness: each check refuses an ill-formed line -/

theorem test_illformed_cmd : AsmLine.wf (.cmd 256) = false := by decide
theorem test_illformed_raw : AsmLine.wf (.interpTemp 32768 0 1 0 0) = false := by decide
theorem test_illformed_x0 : AsmLine.wf (.interpTemp 0 (-32769) 1 0 0) = false := by decide
theorem test_illformed_x1 : AsmLine.wf (.interpHum 0 0 32768 0 0) = false := by decide
theorem test_illformed_y0 : AsmLine.wf (.interpTemp 0 0 1 1024 0) = false := by decide
theorem test_illformed_y1 : AsmLine.wf (.interpHum 0 0 1 0 (-1)) = false := by decide
theorem test_illformed_has_no_word : assemble (.cmd 256) = none := by decide

/-! ## Words written out bit by bit -/

/-- R73: 0x01. -/
theorem test_decode_begin : decode (.cmd8 0b00000001) = .ok .begin := by decide
/-- R73: 0x02. -/
theorem test_decode_read_temp : decode (.cmd8 0b00000010) = .ok .readTemp := by decide
/-- R73: 0x03. -/
theorem test_decode_read_hum : decode (.cmd8 0b00000011) = .ok .readHum := by decide
/-- R74: 0x04 to 0x0F are illegal. -/
theorem test_decode_illegal_op : decode (.cmd8 0b00000100) = .error (.illegalCommand 0x04) := by decide
/-- R74, DC1: `rsv` ≠ 0 is illegal. -/
theorem test_decode_illegal_rsv : decode (.cmd8 0b10000001) = .error (.illegalCommand 0x81) := by decide
/-- R86, R87: `ip_op` = 0, raw = -1, x0 = 0, x1 = 3, y0 = 0, y1 = 1 (vector T6). -/
theorem test_decode_interp_temp :
    decode (.ipop1 0b0000000001_0000000000_0000000000000011_0000000000000000_1111111111111111_0) =
      .ok (.interpTemp 0xFFFF 0 3 0 1) := by decide
/-- R86, R87: `ip_op` = 1, raw = 101, x0 = 0, x1 = 100, y0 = 0, y1 = 200 (vector H5). -/
theorem test_decode_interp_hum :
    decode (.ipop1 0b0011001000_0000000000_0000000001100100_0000000000000000_0000000001100101_1) =
      .ok (.interpHum 101 0 100 0 200) := by decide
/-- R88: an assembler line is its word. -/
theorem test_assemble_read_temp : assemble .readTemp = some (.cmd8 0x02) := by decide

/-! ## One step each, from the spec's vectors -/

/-- B2: BEGIN while INITIALIZED is refused. -/
theorem test_begin_refused :
    (nextOf (step (ready .idle (commandPins 0x01))) State.reset).rspStatus = 2 := by decide
/-- B10: the shared high bits go to both temperature codes. -/
theorem test_begin_shared_msb :
    (nextOf (step { inState .initCal (answerReadPins 0x0E) with
      calIdx := 4, cal := { CalibrationSet.zero with T0_degC_x8 := 0xA0, T1_degC_x8 := 0x90 } }) State.reset).cal =
      { CalibrationSet.zero with T0_degC_x8 := 0x02A0, T1_degC_x8 := 0x0390 } := by decide
/-- RD8: with `POLL_LIMIT` = 1 the first clear poll is a TIMEOUT. -/
theorem test_read_temp_timeout :
    (nextOf (step { ready .rdPoll (answerReadPins 0xFE) with params := { Params.default with pollLimit := 1 } })
      State.reset).rspStatus = 4 := by decide
/-- RD15: P1's reading of 35.0 °C. -/
theorem test_read_temp_conversion :
    (nextOf (step { ready .rdConv quietPins with raw := 0x01F4 }) State.reset).rspData = 0x00002300 := by decide
/-- RD6: the temperature bit does not end a humidity poll. -/
theorem test_read_hum_ignores_temp_bit :
    (nextOf (step { ready .rdPoll (answerReadPins 0x01) with chan := .hum }) State.reset).st = .rdPoll := by decide
/-- RD16: a zero humidity delta sets `fault`. -/
theorem test_read_hum_zero_delta :
    (nextOf (step { ready .rdConv quietPins with chan := .hum, cal := { calP1 with H1_T0_OUT := 0 } })
      State.reset).fault = true := by decide
/-- T6: the division rounds toward minus infinity. -/
theorem test_interp_temp_floor : outputsOf (.interpTemp 0xFFFF 0 3 0 1) = { result := 0xFFFFFFF5, dz := false } := by
  decide
/-- T10: the most negative result. -/
theorem test_interp_temp_extreme :
    outputsOf (.interpTemp 0x7FFF 0x8000 0x8001 1023 0) = { result := 0x8020FFC0, dz := false } := by decide
/-- H5: 101.0 is clamped to 100.0. -/
theorem test_interp_hum_clamp : outputsOf (.interpHum 101 0 100 0 200) = { result := 0x00006400, dz := false } := by
  decide
/-- H12: bits 9:8 of the codes are ignored. -/
theorem test_interp_hum_ignores_high_bits :
    outputsOf (.interpHum 500 0 1000 832 928) = { result := 0x00003800, dz := false } := by decide

/-! ## Witnesses: the Interpolator's statements -/

theorem witness_FloordivRoundsDown : (2 : Int) ≠ 0 ∧ (-2 : Int) ≠ 0 := by decide
theorem witness_InterpTempIsFlooredFormula : (3 : Half) ≠ 0 ∧
    exec (.interpTemp 0xFFFF 0 3 0 1) State.reset =
      .next { State.reset with ip := { result := 0xFFFFFFF5, dz := false } } := ⟨by decide, rfl⟩
theorem witness_InterpHumIsClampedFlooredFormula : (100 : Half) ≠ 0 ∧
    exec (.interpHum 101 0 100 0 200) State.reset =
      .next { State.reset with ip := { result := 0x00006400, dz := false } } := ⟨by decide, rfl⟩
theorem witness_InterpolatorNeverOverflows : (0x8001 : Half) ≠ 0x8000 := by decide
theorem witness_InterpolatorPassesThroughItsPoints : (0x8000 : Half) ≠ 0x7FFF := by decide
theorem witness_InterpolatorIsMonotoneInRaw : (3 : Half) ≠ 0 ∧ (0xFFFF : Half).toInt ≤ (1 : Half).toInt ∧
    0 < subtractorA .temp 0 1 * subtractorC 0 3 ∧ subtractorA .hum 1 0 * subtractorC 0 3 < 0 ∧
    subtractorA .temp 7 7 = 0 := by decide
theorem witness_InterpHumIgnoresHighCodeBits :
    (832 : Code).extractLsb' 0 8 = (64 : Code).extractLsb' 0 8 ∧
    (928 : Code).extractLsb' 0 8 = (160 : Code).extractLsb' 0 8 := by decide
theorem witness_InterpolatorIsPure :
    exec (.interpTemp 5 7 7 160 400) State.reset = .next { State.reset with ip := { result := 0, dz := true } } ∧
    exec (.interpHum 5 9 9 40 160) (ready .idle quietPins) =
      .next { ready .idle quietPins with ip := { result := 0, dz := true } } := ⟨rfl, rfl⟩

/-! ## Witnesses: BEGIN -/

theorem witness_BeginAcceptance :
    let s := inState .idle (commandPins 0x01)
    let s' := ready .idle (commandPins 0x01)
    s.st = .idle ∧ s.initDone = false ∧ s.now.rst = false ∧ s.now.cmdValid = true ∧ s.now.cmd = 0x01 ∧
    s'.st = .idle ∧ s'.initDone = true ∧ s'.now.rst = false ∧ s'.now.cmdValid = true ∧ s'.now.cmd = 0x01 := by decide
theorem witness_IdentityCheck :
    let s := inState .initId (answerReadPins 0xBC)
    let s' := inState .initId (answerReadPins 0xBD)
    s.st = .initId ∧ s.now.rst = false ∧ s.now.busRspValid = true ∧ s.now.busRspRdata = 0xBC ∧
    s'.st = .initId ∧ s'.now.rst = false ∧ s'.now.busRspValid = true ∧ s'.now.busRspRdata ≠ 0xBC := by decide
theorem witness_PowerUpWrite :
    let s := inState .initCtrl (answerWritePins true)
    let s' := inState .initCtrl (answerWritePins false)
    s.st = .initCtrl ∧ s.now.rst = false ∧ s.now.busRspValid = true ∧ s.now.busRspAck = true ∧
    s'.st = .initCtrl ∧ s'.now.rst = false ∧ s'.now.busRspValid = true ∧ s'.now.busRspAck = false := by decide
theorem witness_AveragingWrite :
    let s := inState .initAvg (answerWritePins true)
    let s' := inState .initAvg (answerWritePins false)
    s.st = .initAvg ∧ s.now.rst = false ∧ s.now.busRspValid = true ∧ s.now.busRspAck = true ∧
    s'.st = .initAvg ∧ s'.now.rst = false ∧ s'.now.busRspValid = true ∧ s'.now.busRspAck = false := by decide
theorem witness_CalibrationRead :
    let s := { inState .initCal (answerReadPins 3) with calIdx := 11 }
    let s' := { inState .initCal (answerReadPins 3) with calIdx := 12 }
    s.st = .initCal ∧ s.now.rst = false ∧ s.now.busRspValid = true ∧ s.calIdx.val < 12 ∧
    s'.st = .initCal ∧ s'.now.rst = false ∧ s'.now.busRspValid = true ∧ ¬ s'.calIdx.val < 12 := by decide
theorem witness_BeginSucceedsInSeventeenSteps :
    let b : Fin 13 → Byte := fun i => BitVec.ofNat 8 i.val
    let s := { State.reset with
      env := commandPins 0x01 :: answerReadPins 0xBC :: answerWritePins true :: answerWritePins true ::
        ((List.finRange 13).map fun i => answerReadPins (b i)) ++ [quietPins] }
    s.st = .idle ∧ s.initDone = false ∧ s.env.length = 18 := by decide
theorem witness_BeginFailureChangesOnlyTheResponse :
    let s (l : List Pins) := { State.reset with env := commandPins 0x01 :: l }
    (s [answerReadPins 0xBD]).st = .idle ∧ (s [answerReadPins 0xBD]).initDone = false ∧ (0xBD : Byte) ≠ 0xBC ∧
    (s [answerReadPins 0xBC, answerWritePins false]).env =
      [commandPins 0x01, answerReadPins 0xBC, answerWritePins false] ∧
    (s [answerReadPins 0xBC, answerWritePins true, answerWritePins false]).env =
      [commandPins 0x01, answerReadPins 0xBC, answerWritePins true, answerWritePins false] := by decide
theorem witness_BeginFrame :
    exec .begin (inState .initCal quietPins) = .next (inState .initCal quietPins) ∧
    (inState .initCal quietPins).now.busRspValid = false ∧
    exec .begin (inState .idle quietPins) = .next { inState .idle quietPins with st := .initId } :=
  ⟨rfl, rfl, rfl⟩

/-! ## Witnesses: readings -/

theorem witness_ReadingAcceptance :
    (ready .idle (commandPins 0x02)).st = .idle ∧ (ready .idle (commandPins 0x02)).initDone = true ∧
    (ready .idle (commandPins 0x02)).now.rst = false ∧ (ready .idle (commandPins 0x02)).now.cmdValid = true ∧
    (ready .idle (commandPins 0x02)).now.cmd = 0x02 ∧ (ready .idle (commandPins 0x03)).now.cmd = 0x03 ∧
    (inState .idle (commandPins 0x03)).st = .idle ∧ (inState .idle (commandPins 0x03)).initDone = false ∧
    (inState .idle (commandPins 0x03)).now.rst = false ∧ (inState .idle (commandPins 0x03)).now.cmdValid = true := by
  decide
/-- The branches: the bit set; clear without a limit; clear at the limit; clear below it. -/
theorem witness_DataReadyPoll :
    let s (b : Byte) (lim n : BitVec 32) :=
      { ready .rdPoll (answerReadPins b) with pollCnt := n, params := { Params.default with pollLimit := lim } }
    (s 1 0 0).st = .rdPoll ∧ (s 1 0 0).now.rst = false ∧ (s 1 0 0).chan = .temp ∧ (s 1 0 0).now.busRspValid = true ∧
    dataReady .temp (s 1 0 0).now.busRspRdata = true ∧
    dataReady .temp (s 0xFE 0 0).now.busRspRdata = false ∧ (s 0xFE 0 0).params.pollLimit = 0 ∧
    (s 0xFE 3 2).pollCnt.toNat + 1 = (s 0xFE 3 2).params.pollLimit.toNat ∧
    (s 0xFE 3 1).pollCnt.toNat + 1 ≠ (s 0xFE 3 1).params.pollLimit.toNat := by decide
theorem witness_RawOutputBytes :
    (ready .rdOutL (answerReadPins 0x80)).st = .rdOutL ∧ (ready .rdOutL (answerReadPins 0x80)).chan = .temp ∧
    (ready .rdOutL (answerReadPins 0x80)).now.busRspValid = true ∧
    (ready .rdOutL (answerReadPins 0x80)).now.rst = false ∧ (ready .rdOutH (answerReadPins 0x80)).now.rst = false ∧
    (ready .rdOutH (answerReadPins 0x80)).st = .rdOutH ∧
    (ready .rdOutH (answerReadPins 0x80)).now.busRspValid = true := by decide
theorem witness_ConversionEndsReading :
    (ready .rdConv quietPins).st = .rdConv ∧ (ready .rdConv quietPins).now.rst = false ∧
    (ready .rdConv quietPins).chan = .temp ∧
    (ready .rdConv quietPins).cal.T1_OUT ≠ (ready .rdConv quietPins).cal.T0_OUT ∧
    (inState .rdConv quietPins).cal.T1_OUT = (inState .rdConv quietPins).cal.T0_OUT ∧
    { ready .rdConv quietPins with chan := .hum }.chan = .hum := by decide
theorem witness_ReadingFollowsItsProtocol :
    let s := { ready .idle quietPins with
      env := commandPins (readWord .hum) :: ([0xFD, 0x01].map answerReadPins) ++
        answerReadPins 0x02 :: answerReadPins 0xD0 :: answerReadPins 0x07 :: quietPins :: []
      params := { Params.default with pollLimit := 3 } }
    s.st = .idle ∧ s.initDone = true ∧ (∀ b ∈ ([0xFD, 0x01] : List Byte), dataReady .hum b = false) ∧
    dataReady .hum 0x02 = true ∧ ([0xFD, 0x01] : List Byte).length < s.params.pollLimit.toNat ∧
    Params.default.pollLimit = 0 ∧ s.env.length = 7 := by decide
theorem witness_TimeoutAtTheLimit :
    let s := { ready .idle quietPins with
      env := commandPins (readWord .temp) :: ([0xFE].map answerReadPins) ++ []
      params := { Params.default with pollLimit := 1 } }
    s.st = .idle ∧ s.initDone = true ∧ s.params.pollLimit ≠ 0 ∧ ([0xFE] : List Byte).length = s.params.pollLimit.toNat ∧
    (∀ b ∈ ([0xFE] : List Byte), dataReady .temp b = false) ∧ s.env.length = 2 := by decide
theorem witness_ReadingFrame :
    exec (readCommand .temp) (ready .rdOutL (answerReadPins 5)) =
      .next { ready .rdOutL (answerReadPins 5) with rawLo := 5, st := .rdOutH } ∧
    exec (readCommand .hum) (ready .idle quietPins) =
      .next { ready .idle quietPins with chan := .hum, st := .rdPoll } := ⟨rfl, rfl⟩
theorem witness_WaitingCommandChangesNothing :
    (ready .rdPoll quietPins).st.inReading = true ∧ (inState .initAvg quietPins).st.inBegin = true ∧
    Channel.hum ≠ (ready .rdPoll quietPins).chan := by decide

/-! ## Witnesses: the step -/

theorem witness_StepRunsDecodedCommand :
    let s := inState .idle (commandPins 0x03)
    s.now.rst = false ∧ s.st = .idle ∧ s.now.cmdValid = true ∧ decode (.cmd8 s.now.cmd) = .ok .readHum ∧
    (inState .initCal quietPins).st.inBegin = true ∧ (ready .rdConv quietPins).st.inReading = true := by decide
theorem witness_StepRunsDecodedOperation :
    let s := ready .rdConv quietPins
    s.now.rst = false ∧ s.st = .rdConv ∧
    decode (.ipop1 (ipBundle (BitVec.ofBool s.chan.bit) s.raw
      (s.cal.x0 s.chan) (s.cal.x1 s.chan) (s.cal.y0 s.chan) (s.cal.y1 s.chan))) =
      .ok (.interpTemp 0 0 1000 160 400) := by decide
/-- The illegal words at the edges of R74's ranges. -/
theorem witness_IllegalWordIsRefused :
    ∀ w ∈ ([0x00, 0x04, 0x0F, 0x10, 0x11, 0xFF] : List Byte),
      let s := inState .idle (commandPins w)
      s.now.rst = false ∧ s.st = .idle ∧ s.now.cmdValid = true ∧
      s.now.cmd ≠ 0x01 ∧ s.now.cmd ≠ 0x02 ∧ s.now.cmd ≠ 0x03 := by decide
theorem witness_ResetWins : (ready .rdPoll { answerReadPins 1 with rst := true }).now.rst = true := by decide
theorem witness_UnusedEncodingActsAsReset :
    (inState (.unused 0) quietPins).st.isUnused = true ∧ (inState (.unused 6) quietPins).st.isUnused = true := by decide
theorem witness_UnansweredRequestHolds :
    (inState .initId quietPins).now.rst = false ∧ (inState .initId quietPins).busReqValid = true ∧
    (inState .initId quietPins).now.busRspValid = false ∧
    (inState .idle quietPins).st = .idle ∧ (inState .idle quietPins).now.cmdValid = false := by decide
theorem witness_UnansweredRequestHangs :
    let s := { inState .rdOutH quietPins with env := [quietPins, commandPins 1] }
    s.busReqValid = true ∧ ∀ k < 2, (s.pinsAt k).rst = false ∧ (s.pinsAt k).busRspValid = false := by decide
theorem witness_UnboundedPollHangs :
    let s := { ready .rdPoll quietPins with env := [answerReadPins 0xFE, quietPins] }
    s.st = .rdPoll ∧ s.params.pollLimit = 0 ∧ ∀ k < 2, (s.pinsAt k).rst = false ∧
      ((s.pinsAt k).busRspValid = true → dataReady s.chan (s.pinsAt k).busRspRdata = false) := by decide
/-- A read state, a write state, and IDLE, each with two inputs that differ in what the statement says is not read. -/
theorem witness_StepReadsOnlyItsInputs :
    (let s := inState .rdOutL quietPins
     let p := answerReadPins 7
     let q := { answerReadPins 7 with busRspAck := true, cmdValid := true, cmd := 1 }
     p ≠ q ∧ p.rst = q.rst ∧ s.st ≠ .idle ∧ s.busReqValid = true ∧ p.busRspValid = q.busRspValid ∧
     p.busRspRdata = q.busRspRdata) ∧
    (let s := inState .initAvg quietPins
     let p := answerWritePins true
     let q := { answerWritePins true with busRspRdata := 9 }
     p ≠ q ∧ p.rst = q.rst ∧ s.st ≠ .idle ∧ s.busReqValid = true ∧ p.busRspValid = q.busRspValid ∧
     p.busRspAck = q.busRspAck) ∧
    (let s := inState .idle quietPins
     let p := commandPins 2
     let q := { commandPins 2 with busRspValid := true, busRspRdata := 9 }
     p ≠ q ∧ p.rst = q.rst ∧ s.busReqValid = false ∧ p.cmdValid = q.cmdValid ∧ p.cmd = q.cmd) := by decide
theorem witness_StepKeepsParameters :
    step (inState .initId quietPins) = .next (inState .initId quietPins).tick := rfl

/-! ## Witnesses: requests, errors, whole-machine rules -/

theorem witness_OnlyMappedRegistersAddressed :
    (inState .initCtrl quietPins).busReq = some { we := true, dev := 0x5F, addr := 0x20, wdata := 0x85 } ∧
    { inState .initCal quietPins with calIdx := 12 }.busReq =
      some { we := false, dev := 0x5F, addr := 0x3F, wdata := 0 } := by decide
theorem witness_BusRequestTable :
    (inState .initId quietPins).st = .initId ∧ (inState .initCtrl quietPins).st = .initCtrl ∧
    (inState .initAvg quietPins).st = .initAvg ∧ (inState .initCal quietPins).st = .initCal ∧
    (inState .rdPoll quietPins).st = .rdPoll ∧ (inState .rdOutL quietPins).st = .rdOutL ∧
    (inState .rdOutH quietPins).st = .rdOutH ∧ (inState (.unused 3) quietPins).st.isUnused = true := by decide
theorem witness_ErrorEntry : Status.divZero ≠ .ok ∧ Status.timeout ≠ .ok := by decide
/-- A response of each status. -/
theorem witness_StatusHasItsCause :
    { inState .initCal (answerReadPins 3) with calIdx := 12 }.delivered = some (0, 0) ∧
    (ready .rdConv quietPins).delivered = some (0, 0x1400) ∧
    (inState .initAvg (answerWritePins false)).delivered = some (1, 0) ∧
    (inState .idle (commandPins 0x02)).delivered = some (2, 0) ∧
    { ready .rdConv quietPins with cal := .zero }.delivered = some (3, 0) ∧
    { ready .rdPoll (answerReadPins 0) with params := { Params.default with pollLimit := 1 } }.delivered =
      some (4, 0) := by decide
theorem witness_OnlyResponsesWriteTheResponse :
    let s := ready .idle (commandPins 0x02)
    let s' := ready .idle (commandPins 0x01)
    step s = .next ({ s with st := .rdPoll } : State).tick ∧ s.now.rst = false ∧ s.st.isUnused = false ∧ s.delivered = none ∧
    step s' = .next (responded s' 2 0).tick ∧ s'.delivered = some (2, 0) :=
  ⟨rfl, rfl, rfl, rfl, rfl, rfl⟩
theorem witness_InitDoneSetOnlyByLastRead :
    let s := { inState .initCal (answerReadPins 3) with calIdx := 12 }
    let s' := ready .idle { quietPins with rst := true }
    s.initDone = false ∧ (nextOf (step s) s).initDone = true ∧ s'.initDone = true ∧
    (nextOf (step s') s').initDone = false := by decide
theorem witness_FaultIsSticky :
    let s := { ready .rdConv quietPins with cal := .zero }
    let s' := { ready .idle { quietPins with rst := true } with fault := true }
    s.fault = false ∧ (nextOf (step s) s).fault = true ∧ s'.fault = true ∧ (nextOf (step s') s').fault = false := by decide

/-! ## Witnesses: invariants -/

/-- An INITIALIZED machine in IDLE meets the invariant. -/
theorem ready_invariant (p : Pins) : Invariant (ready .idle p) := by
  constructor <;> simp [ready, inState, calP1, State.reset, St.isUnused, St.inBegin, St.inReading]

/-- A machine at the conversion of a channel whose delta is zero meets the invariant. -/
def stuck : State := { ready .rdConv quietPins with cal := .zero }

theorem stuck_invariant : Invariant stuck := by
  constructor <;> simp [stuck, ready, inState, calP1, State.reset, St.isUnused, St.inBegin, St.inReading,
    CalibrationSet.zero]

theorem witness_StepKeepsInvariant : Invariant (ready .idle quietPins) ∧
    step (ready .idle quietPins) = .next (ready .idle quietPins).tick := ⟨ready_invariant _, rfl⟩
theorem witness_CalibrationIsImmutable : Invariant (ready .idle quietPins) ∧ (ready .idle quietPins).initDone = true ∧
    (∀ k < 1, ((ready .idle quietPins).pinsAt k).rst = false) ∧
    run 1 (ready .idle quietPins) = .next (ready .idle quietPins).tick := ⟨ready_invariant _, rfl, by decide, rfl⟩
theorem witness_ZeroDeltaFailsEveryConversion : Invariant stuck ∧ stuck.initDone = true ∧
    stuck.cal.zeroDelta .temp = true ∧ (∀ k < 0, (stuck.pinsAt k).rst = false) ∧ run 0 stuck = .next stuck ∧
    stuck.st = .rdConv ∧ stuck.chan = .temp ∧ stuck.delivered = some (3, 0) :=
  ⟨stuck_invariant, by decide, by decide, by decide, rfl, by decide, by decide, by decide⟩
theorem witness_OneResponsePerAcceptedCommand :
    Invariant (ready .idle quietPins) ∧ (ready .idle quietPins).st = .idle := ⟨ready_invariant _, by decide⟩
theorem witness_SessionStepKeepsBalance :
    let x := Session.start (ready .idle quietPins) [0x02] []
    Invariant x.machine ∧ x.balanced = true ∧ x.step.accepted = 1 := ⟨ready_invariant _, by decide, by decide⟩

/-! ## Witnesses: what is observed -/

/-- A request issued and not answered shows in the trace. -/
theorem witness_RequestsIssuedAreAnsweredInOrder :
    let s := { State.reset with env := [commandPins 0x01, answerReadPins 0xBC, quietPins] }
    (∀ k < 3, (s.pinsAt k).rst = false) ∧ run 3 s = .next { s with st := .initCtrl, env := [], clock := 3 } ∧
    (trace 3 s).requests.length = 2 ∧ (answeredIn 3 s).length = 1 := ⟨by decide, rfl, by decide, by decide⟩
theorem witness_SilentTransportShowsTheRequest :
    let s := { State.reset with env := commandPins 0x01 :: List.replicate 2 quietPins ++ [] }
    s.st = .idle ∧ s.initDone = false ∧ s.env = [commandPins 0x01, quietPins, quietPins] := by decide
theorem witness_ResetAbandonsTheRequest :
    let s := ready .rdOutL { answerReadPins 7 with rst := true }
    s.now.rst = true ∧ s.busReqValid = true ∧ s.now.busRspValid = true := by decide

end Sys2Proof.Tests
end

section
/-! PROOFS. The step as a whole: it always answers, what it runs, what it holds, and what a hold, a hang and a session
show of a run. -/

namespace Sys2Proof.Machine

open Sys2Proof

variable {s t : State}

/-! ## `floordiv` is the floor of the quotient -/

/-- The floor of a quotient of integers over the rationals is the library's `Int.fdiv`. -/
theorem floor_intCast_div (n d : Int) : ⌊(n : ℚ) / d⌋ = n.fdiv d := by
  have nonneg (n d : Int) (hd : 0 ≤ d) : ⌊(n : ℚ) / d⌋ = n.fdiv d := by
    rw [Int.floor_div_cast_of_nonneg hd, Int.floor_intCast, Int.fdiv_eq_ediv_of_nonneg n hd]
  rcases le_total 0 d with h | h
  · exact nonneg n d h
  · have := nonneg (-n) (-d) (by omega)
    rwa [Int.cast_neg, Int.cast_neg, neg_div_neg_eq, Int.neg_fdiv_neg] at this

theorem floordiv_eq_floor (n d : Int) (hd : d ≠ 0) : floordiv n d = ⌊(n : ℚ) / d⌋ := by
  rw [floordiv_eq_fdiv n d hd, floor_intCast_div n d]

/-- With both points equal the divisor is zero, and nothing is divided (R165). -/
theorem interp_same_points (op : Channel) (raw x0 : Half) (y0 y1 : Code) :
    interp op raw x0 x0 y0 y1 = { result := 0, dz := true } := by
  simp [interp, subtractorC]

/-- Settles O4: `floordiv` is the floor of the rational quotient, and the floor is R7's unique integer. -/
theorem floordivRoundsDown : Obligations.FloordivRoundsDown := by
  refine ⟨fun n d hd => ?_, interp_same_points, by decide, by decide, by decide, by decide, by decide⟩
  refine ⟨?_, ?_, fun q hq hq' => ?_, rfl⟩ <;> rw [floordiv_eq_floor n d hd]
  · exact Int.floor_le _
  · exact Int.lt_floor_add_one _
  · exact (Int.floor_eq_iff.mpr ⟨hq, hq'⟩).symm

/-! ## The step always answers -/

theorem exec_answers_next (i : Instr) (s : State) : ∃ t, exec i s = .next t := by
  cases i <;> exact ⟨_, rfl⟩

/-- Settles O42, by what is fetched: whatever is run answers a next state. -/
theorem stepAlwaysAnswersNext : Obligations.StepAlwaysAnswersNext := by
  intro s
  cases hf : s.fetch with
  | reset => exact ⟨_, step_of_reset hf⟩
  | illegal => exact ⟨_, step_of_illegal hf⟩
  | hold => exact ⟨_, step_of_hold hf⟩
  | command i =>
    obtain ⟨t, ht⟩ := exec_answers_next i s
    exact ⟨_, by rw [step_of_command hf, ht, mapNext_next]⟩
  | operation i =>
    obtain ⟨t, ht⟩ := exec_answers_next i s
    exact ⟨_, by rw [step_of_operation hf, ht, mapNext_next, mapNext_next]⟩

/-! ## What every step keeps -/

theorem Transition.keeps_environment {u : State} (h : Transition s u) :
    u.params = s.params ∧ u.env = s.env ∧ u.clock = s.clock := by
  cases h <;> exact ⟨rfl, rfl, rfl⟩

/-- Settles O43: the Sequencer's part keeps parameters and inputs, and `tick` uses up one entry. -/
theorem stepKeepsParameters : Obligations.StepKeepsParameters := by
  intro s t h
  obtain ⟨u, hu, rfl⟩ := step_transition h
  obtain ⟨hp, he, hc⟩ := hu.keeps_environment
  simp [hp, he, hc]

/-- No transition leads into an unused encoding (R243). -/
theorem Transition.isUnused_eq_false {u : State} (h : Transition s u) (hs : s.st.isUnused = false) :
    u.st.isUnused = false := by
  cases h with
  | noCommand => exact hs
  | unanswered => exact hs
  | calRead => exact hs
  | pollUnbounded => exact hs
  | pollCounted => exact hs
  | _ => rfl

theorem step_isUnused_eq_false (h : step s = .next t) (hs : s.st.isUnused = false) : t.st.isUnused = false := by
  obtain ⟨u, hu, rfl⟩ := step_transition h
  exact hu.isUnused_eq_false hs

/-! ## The reset state and a reset step -/

/-- Settles O36, by evaluation of the reset state. -/
theorem resetState : Obligations.ResetState := by
  exact ⟨rfl, rfl, rfl, rfl, rfl, rfl, rfl, rfl, rfl, rfl, rfl, rfl, rfl, rfl⟩

theorem advances_of_rst (h : s.now.rst = true) : s.advances = false := by
  simp [State.advances, fetch_reset h]

/-- Settles O59: a reset is no Sequencer step, and it ends in IDLE, which presents no request. -/
theorem resetAbandonsTheRequest : Obligations.ResetAbandonsTheRequest := by
  intro s h
  have hstep := step_of_reset (fetch_reset h)
  have ha := advances_of_rst h
  exact ⟨by simp [issued_of_next hstep, ha], by simp [State.answered, ha], by simp [delivered_of_next hstep, ha],
    _, hstep, rfl⟩

/-! ## What a step runs, by the Sequencer's state -/

theorem St.inBegin_iff (q : St) : q.inBegin = true ↔ q = .initId ∨ q = .initCtrl ∨ q = .initAvg ∨ q = .initCal := by
  cases q <;> simp [St.inBegin]

theorem St.inReading_iff (q : St) :
    q.inReading = true ↔ q = .rdConv ∨ q = .rdPoll ∨ q = .rdOutL ∨ q = .rdOutH := by
  cases q <;> simp [St.inReading]

/-- The bus states are those of BEGIN and of a reading but RD_CONV (R83). -/
theorem busReqValid_iff (s : State) :
    s.busReqValid = true ↔ s.st.inBegin = true ∨ (s.st.inReading = true ∧ s.st ≠ .rdConv) := by
  cases hs : s.st <;> simp [State.busReqValid, State.busReq, St.inBegin, St.inReading, hs]

theorem busReq_of_idle (hs : s.st = .idle) : s.busReq = none := by simp [State.busReq, hs]

/-- A state in use is IDLE, a bus state or RD_CONV (R83). -/
theorem idle_or_bus_or_rdConv (hu : s.st.isUnused = false) :
    s.st = .idle ∨ s.busReqValid = true ∨ s.st = .rdConv := by
  rw [busReqValid_iff]
  cases hs : s.st <;> simp [hs, St.isUnused, St.inBegin, St.inReading] at hu ⊢

theorem exec_begin (s : State) : exec .begin s = .next (beginStep s) := rfl

theorem step_of_inBegin (hr : s.now.rst = false) (hs : s.st.inBegin = true) : step s = .next (beginStep s).tick := by
  rw [step_of_command (fetch_begin hr (s.st.inBegin_iff.mp hs)), exec_begin, mapNext_next]

/-- In RD_CONV the operation and the end of the reading are together the reading's own step (R137, R139). -/
theorem step_of_inReading (hr : s.now.rst = false) (hs : s.st.inReading = true) :
    step s = .next (readStep s.chan s).tick := by
  rcases s.st.inReading_iff.mp hs with hconv | hbus
  · have hread : readStep s.chan s = rdConvStep s := by simp [readStep, hconv]
    rw [step_of_operation (fetch_conversion hr hconv), exec_conversion, mapNext_next, mapNext_next, hread, rdConvStep]
  · rw [step_of_command (fetch_reading hr hbus), exec_readCommand, mapNext_next]

/-- Settles O32, by the Sequencer's state: IDLE, a state of BEGIN, a state of a reading. -/
theorem stepRunsDecodedCommand : Obligations.StepRunsDecodedCommand := by
  intro s i hr
  refine ⟨fun hs hv hd => step_of_command (fetch_accepted hr hs hv hd), fun hs => ?_, fun hs => ?_⟩
  · rw [step_of_inBegin hr hs, exec_begin, mapNext_next]
  · rw [step_of_inReading hr hs, exec_readCommand, mapNext_next]

/-! ## The Interpolator port's bundle -/

section
variable (op : BitVec 1) (raw x0 x1 : Half) (y0 y1 : Code)

theorem ipBundle_raw : (ipBundle op raw x0 x1 y0 y1).extractLsb' 1 16 = raw := by
  unfold ipBundle
  rw [BitVec.extractLsb'_append_eq_of_le (by omega), BitVec.extractLsb'_append_eq_right]

theorem ipBundle_x0 : (ipBundle op raw x0 x1 y0 y1).extractLsb' 17 16 = x0 := by
  unfold ipBundle
  iterate 2 rw [BitVec.extractLsb'_append_eq_of_le (by omega)]
  exact BitVec.extractLsb'_append_eq_right

theorem ipBundle_x1 : (ipBundle op raw x0 x1 y0 y1).extractLsb' 33 16 = x1 := by
  unfold ipBundle
  iterate 3 rw [BitVec.extractLsb'_append_eq_of_le (by omega)]
  exact BitVec.extractLsb'_append_eq_right

theorem ipBundle_y0 : (ipBundle op raw x0 x1 y0 y1).extractLsb' 49 10 = y0 := by
  unfold ipBundle
  iterate 4 rw [BitVec.extractLsb'_append_eq_of_le (by omega)]
  exact BitVec.extractLsb'_append_eq_right

theorem ipBundle_y1 : (ipBundle op raw x0 x1 y0 y1).extractLsb' 59 10 = y1 := by
  unfold ipBundle
  iterate 5 rw [BitVec.extractLsb'_append_eq_of_le (by omega)]
  exact BitVec.extractLsb'_eq_self

/-- The decoder finds each signal where the bundle puts it (R86, R87). -/
theorem decodeIp_ipBundle :
    decodeIp (ipBundle op raw x0 x1 y0 y1) =
      if op = 0 then .interpTemp raw x0 x1 y0 y1 else .interpHum raw x0 x1 y0 y1 := by
  simp only [decodeIp, Laws.TableRow.ipBundle_op, ipBundle_raw, ipBundle_x0, ipBundle_x1, ipBundle_y0, ipBundle_y1]

end

/-- The bundle of the signals driven in RD_CONV decodes to the conversion (R137, R138). -/
theorem decode_conversion_bundle (s : State) :
    decode (.ipop1 (ipBundle (BitVec.ofBool s.chan.bit) s.raw
      (s.cal.x0 s.chan) (s.cal.x1 s.chan) (s.cal.y0 s.chan) (s.cal.y1 s.chan))) = .ok s.conversion := by
  rw [decode, decodeIp_ipBundle]
  cases hc : s.chan <;> simp [Channel.bit, State.conversion, hc]

/-- Settles O33: the bundle decodes to the conversion, which is what the step fetches in RD_CONV. -/
theorem stepRunsDecodedOperation : Obligations.StepRunsDecodedOperation := by
  intro s i hr hs hd
  rw [decode_conversion_bundle, Except.ok.injEq] at hd
  rw [← hd, step_of_operation (fetch_conversion hr hs)]

/-! ## Holds -/

theorem onRead_of_unanswered (hv : s.now.busRspValid = false) (take : Byte → State) : s.onRead take = s := by
  simp [State.onRead, hv]

theorem onWrite_of_unanswered (hv : s.now.busRspValid = false) (take : Bool → State) : s.onWrite take = s := by
  simp [State.onWrite, hv]

theorem beginStep_of_unanswered (hs : s.st ≠ .idle) (hv : s.now.busRspValid = false) : beginStep s = s := by
  have hid : initIdStep s = s := onRead_of_unanswered hv _
  have hctrl : initCtrlStep s = s := onWrite_of_unanswered hv _
  have havg : initAvgStep s = s := onWrite_of_unanswered hv _
  have hcal : initCalStep s = s := onRead_of_unanswered hv _
  cases h : s.st with
  | idle => exact absurd h hs
  | initId => simp [beginStep, h, hid]
  | initCtrl => simp [beginStep, h, hctrl]
  | initAvg => simp [beginStep, h, havg]
  | initCal => simp [beginStep, h, hcal]
  | _ => simp [beginStep, h]

theorem readStep_of_unanswered (c : Channel) (hs : s.st ≠ .idle) (hconv : s.st ≠ .rdConv)
    (hv : s.now.busRspValid = false) : readStep c s = s := by
  have hpoll : rdPollStep s = s := onRead_of_unanswered hv _
  have hlow : rdOutLStep s = s := onRead_of_unanswered hv _
  have hhigh : rdOutHStep s = s := onRead_of_unanswered hv _
  cases h : s.st with
  | idle => exact absurd h hs
  | rdConv => exact absurd h hconv
  | rdPoll => simp [readStep, h, hpoll]
  | rdOutL => simp [readStep, h, hlow]
  | rdOutH => simp [readStep, h, hhigh]
  | _ => simp [readStep, h]

/-- A request with no answer holds (R10, R53). -/
theorem step_of_unanswered (hr : s.now.rst = false) (hb : s.busReqValid = true) (hv : s.now.busRspValid = false) :
    step s = .next s.tick := by
  rcases (busReqValid_iff s).mp hb with hbegin | ⟨hread, hconv⟩
  · have hidle : s.st ≠ .idle := by rintro h; simp [h, St.inBegin] at hbegin
    rw [step_of_inBegin hr hbegin, beginStep_of_unanswered hidle hv]
  · have hidle : s.st ≠ .idle := by rintro h; simp [h, St.inReading] at hread
    rw [step_of_inReading hr hread, readStep_of_unanswered _ hidle hconv hv]

/-- A poll answered with the bit clear changes nothing when there is no limit (R136). -/
theorem step_of_unboundedPoll (hr : s.now.rst = false) (hs : s.st = .rdPoll) (hl : s.params.pollLimit = 0)
    (hv : s.now.busRspValid = true) (hd : dataReady s.chan s.now.busRspRdata = false) : step s = .next s.tick := by
  have hstep : readStep s.chan s = s := by
    simp [readStep, hs, rdPollStep, State.onRead, hv, hd, pollAgain, hl]
  rw [step_of_inReading hr (by rw [hs]; rfl), hstep]

/-- Settles O38: the step of a hold is the passing of time, and time changes no request. -/
theorem unansweredRequestHolds : Obligations.UnansweredRequestHolds := by
  intro s hr
  exact ⟨fun hb hv => ⟨step_of_unanswered hr hb hv, rfl⟩, fun hs hv => step_of_hold (fetch_idle hr hs hv)⟩

/-! ## Hangs -/

@[simp] theorem State.elapsed_zero (s : State) : s.elapsed 0 = s := rfl
@[simp] theorem State.elapsed_st (s : State) (n : Nat) : (s.elapsed n).st = s.st := rfl
@[simp] theorem State.elapsed_chan (s : State) (n : Nat) : (s.elapsed n).chan = s.chan := rfl
@[simp] theorem State.elapsed_params (s : State) (n : Nat) : (s.elapsed n).params = s.params := rfl
@[simp] theorem State.elapsed_busReqValid (s : State) (n : Nat) : (s.elapsed n).busReqValid = s.busReqValid := rfl

theorem State.elapsed_tick (s : State) (n : Nat) : (s.elapsed n).tick = s.elapsed (n + 1) := by
  simp [State.tick, State.elapsed, Nat.add_assoc]

theorem State.tick_elapsed (s : State) (n : Nat) : s.tick.elapsed n = s.elapsed (n + 1) := by
  simp [State.tick, State.elapsed, Nat.add_assoc, Nat.add_comm 1 n]

/-- The inputs after `n` steps in which nothing changed are those `n` steps on. -/
@[simp] theorem State.elapsed_now (s : State) (n : Nat) : (s.elapsed n).now = s.pinsAt n := by
  have hhead : s.env[n]? = (s.env.drop n).head? := by simp
  cases hd : s.env.drop n with
  | nil => rw [State.now_nil (s.elapsed n) hd, State.pinsAt, hhead, hd]; rfl
  | cons p l => rw [State.now_cons (s.elapsed n) p l hd, State.pinsAt, hhead, hd]; rfl

theorem State.pinsAt_zero (s : State) : s.pinsAt 0 = s.now := (s.elapsed_now 0).symm

theorem State.tick_pinsAt (s : State) (k : Nat) : s.tick.pinsAt k = s.pinsAt (k + 1) := by
  rw [← State.elapsed_now, State.tick_elapsed, State.elapsed_now]

/-- A machine that only lets time pass at each of the next `n` steps is where it was after them. -/
theorem run_of_holds (n : Nat) (s : State) (h : ∀ k < n, step (s.elapsed k) = .next (s.elapsed k).tick) :
    run n s = .next (s.elapsed n) := by
  induction n generalizing s with
  | zero => rfl
  | succ n ih =>
    have hfirst : step s = .next s.tick := h 0 n.succ_pos
    rw [run, hfirst, ← State.tick_elapsed]
    refine ih s.tick fun k hk => ?_
    rw [State.tick_elapsed]
    exact h (k + 1) (by omega)

/-- Settles O39: each of the `n` steps finds the same request unanswered and holds. -/
theorem unansweredRequestHangs : Obligations.UnansweredRequestHangs := by
  intro n s hb h
  refine run_of_holds n s fun k hk => ?_
  obtain ⟨hr, hv⟩ := h k hk
  exact step_of_unanswered (by simpa using hr) hb (by simpa using hv)

/-- Settles O40: each of the `n` steps is an unanswered poll or one that finds the bit clear, and neither changes
anything. -/
theorem unboundedPollHangs : Obligations.UnboundedPollHangs := by
  intro n s hs hl h
  refine run_of_holds n s fun k hk => ?_
  obtain ⟨hr, hclear⟩ := h k hk
  rw [← State.elapsed_now] at hr hclear
  cases hv : (s.elapsed k).now.busRspValid with
  | false => exact step_of_unanswered hr ((busReqValid_iff _).mpr (.inr (by simp [hs, St.inReading]))) hv
  | true => exact step_of_unboundedPoll hr hs hl hv (hclear hv)

/-! ## Which steps are Sequencer steps -/

theorem advances_of_idle (hr : s.now.rst = false) (hs : s.st = .idle) : s.advances = s.now.cmdValid := by
  cases hv : s.now.cmdValid with
  | false => simp [State.advances, fetch_idle hr hs hv]
  | true =>
    have hb : s.busReqValid = false := by simp [State.busReqValid, busReq_of_idle hs]
    cases hd : decodeCmd s.now.cmd with
    | ok i => simp [State.advances, fetch_accepted hr hs hv hd, hb]
    | error e => simp [State.advances, State.fetch, hr, hs, hv, hd]

theorem advances_of_busReqValid (hr : s.now.rst = false) (hb : s.busReqValid = true) :
    s.advances = s.now.busRspValid := by
  have hf : ∃ i, s.fetch = .command i := by
    rcases (busReqValid_iff s).mp hb with hbegin | ⟨hread, hconv⟩
    · exact ⟨_, fetch_begin hr (s.st.inBegin_iff.mp hbegin)⟩
    · exact ⟨_, fetch_reading hr ((s.st.inReading_iff.mp hread).resolve_left hconv)⟩
  obtain ⟨i, hf⟩ := hf
  simp [State.advances, hf, hb]

theorem advances_of_rdConv (hr : s.now.rst = false) (hs : s.st = .rdConv) : s.advances = true := by
  simp [State.advances, fetch_conversion hr hs]

/-- A step that is no reset and no Sequencer step is a hold (R10). -/
theorem step_of_not_advances (hr : s.now.rst = false) (hu : s.st.isUnused = false) (ha : s.advances = false) :
    step s = .next s.tick := by
  rcases idle_or_bus_or_rdConv hu with hs | hb | hs
  · exact step_of_hold (fetch_idle hr hs (by rw [← advances_of_idle hr hs, ha]))
  · exact step_of_unanswered hr hb (by rw [← advances_of_busReqValid hr hb, ha])
  · exact absurd (advances_of_rdConv hr hs) (by simp [ha])

/-! ## The trace of a silent transport -/

theorem trace_succ_of_next (h : step s = .next t) (n : Nat) :
    trace (n + 1) s = { requests := s.issued.toList ++ (trace n t).requests
                        responses := s.delivered.toList ++ (trace n t).responses } := by
  simp [trace, h]

theorem answeredIn_succ_of_next (h : step s = .next t) (n : Nat) :
    answeredIn (n + 1) s = s.answered.toList ++ answeredIn n t := by
  simp [answeredIn, h]

/-- A run whose request is never answered shows nothing more: the request was issued when the state was entered. -/
theorem trace_of_unanswered (n : Nat) (s : State) (hb : s.busReqValid = true)
    (h : ∀ k < n, (s.pinsAt k).rst = false ∧ (s.pinsAt k).busRspValid = false) :
    trace n s = { requests := [], responses := [] } ∧ answeredIn n s = [] := by
  induction n generalizing s with
  | zero => exact ⟨rfl, rfl⟩
  | succ n ih =>
    obtain ⟨hr, hv⟩ : s.now.rst = false ∧ s.now.busRspValid = false := by
      rw [← State.pinsAt_zero]; exact h 0 n.succ_pos
    have hstep := step_of_unanswered hr hb hv
    have ha : s.advances = false := by rw [advances_of_busReqValid hr hb, hv]
    obtain ⟨htrace, hanswered⟩ := ih s.tick hb fun k hk => by
      rw [State.tick_pinsAt]; exact h (k + 1) (by omega)
    simp [trace_succ_of_next hstep, answeredIn_succ_of_next hstep, htrace, hanswered, issued_of_next hstep,
      delivered_of_next hstep, State.answered, ha]

/-- Acceptance of BEGIN while UNINITIALIZED enters INIT_ID (R101). -/
theorem step_of_beginAccepted (hr : s.now.rst = false) (hs : s.st = .idle) (hv : s.now.cmdValid = true)
    (hw : s.now.cmd = 0x01) (hi : s.initDone = false) :
    step s = .next ({ s.accept with st := .initId } : State).tick := by
  have hf : s.fetch = .command .begin := fetch_accepted hr hs hv (by rw [hw]; rfl)
  have hbegin : beginStep s = { s.accept with st := .initId } := by simp [beginStep, hs, beginAccept, hi]
  rw [step_of_command hf, exec_begin, hbegin, mapNext_next]

/-- Settles O58: the acceptance issues the identity read, and the silent steps after it show nothing. -/
theorem silentTransportShowsTheRequest : Obligations.SilentTransportShowsTheRequest := by
  intro n s rest hs hi henv
  have hnow : s.now = commandPins 0x01 := s.now_cons _ _ henv
  have hr : s.now.rst = false := by rw [hnow]; rfl
  have hv : s.now.cmdValid = true := by rw [hnow]; rfl
  have hstep := step_of_beginAccepted hr hs hv (by rw [hnow]; rfl) hi
  have ha : s.advances = true := by rw [advances_of_idle hr hs, hv]
  have hquiet : ∀ k < n, ({ s.accept with st := .initId } : State).tick.pinsAt k = quietPins := by
    intro k hk
    simp [State.pinsAt, henv, List.getElem?_append_left, hk]
  obtain ⟨htrace, hanswered⟩ := trace_of_unanswered n ({ s.accept with st := .initId } : State).tick rfl
    fun k hk => by rw [hquiet k hk]; exact ⟨rfl, rfl⟩
  rw [trace_succ_of_next hstep, answeredIn_succ_of_next hstep, htrace, hanswered, issued_of_next hstep,
    delivered_of_next hstep, State.answered, busReq_of_idle hs, ha]
  exact ⟨rfl, rfl⟩

/-! ## Sessions -/

/-- A session's machine with the inputs of its next step. -/
def Session.presented (x : Session) : State := { x.machine with env := [x.pins] }

theorem Session.presented_now (x : Session) : x.presented.now = x.pins := rfl

@[simp] theorem BusLine.pins_rst (l : BusLine) : l.pins.rst = false := by cases l <;> rfl

@[simp] theorem BusLine.pins_cmdValid (l : BusLine) : l.pins.cmdValid = false := by cases l <;> rfl

theorem Session.pins_of_idle_cons {x : Session} {w : Byte} {ws : List Byte} (hs : x.machine.st = .idle)
    (hw : x.program = w :: ws) : x.pins = commandPins w := by
  simp [Session.pins, busReq_of_idle hs, hs, hw]

theorem Session.pins_of_idle_nil {x : Session} (hs : x.machine.st = .idle) (hw : x.program = []) :
    x.pins = quietPins := by
  simp [Session.pins, busReq_of_idle hs, hs, hw]

/-- Outside IDLE a session presents a line of its script, or nothing. -/
theorem Session.pins_of_not_idle {x : Session} (hs : x.machine.st ≠ .idle) :
    (∃ l : BusLine, x.pins = l.pins) ∨ x.pins = quietPins := by
  unfold Session.pins
  split
  · split
    · split_ifs
      · exact .inl ⟨_, rfl⟩
      · exact .inr rfl
    · exact .inr rfl
  · split
    next hidle _ => exact absurd hidle hs
    next => exact .inr rfl

theorem Session.pins_rst (x : Session) : x.pins.rst = false := by
  by_cases hs : x.machine.st = .idle
  · cases hw : x.program with
    | nil => rw [Session.pins_of_idle_nil hs hw]; rfl
    | cons w ws => rw [Session.pins_of_idle_cons hs hw]; rfl
  · rcases Session.pins_of_not_idle hs with ⟨l, hl⟩ | hl <;> rw [hl]
    · exact l.pins_rst
    · rfl

/-- A session presents a command exactly in IDLE, while its program has words left. -/
theorem Session.pins_cmdValid_iff (x : Session) :
    x.pins.cmdValid = true ↔ x.machine.st = .idle ∧ x.program ≠ [] := by
  by_cases hs : x.machine.st = .idle
  · cases hw : x.program with
    | nil => simp [Session.pins_of_idle_nil hs hw, quietPins]
    | cons w ws => simp [Session.pins_of_idle_cons hs hw, commandPins, hs]
  · rcases Session.pins_of_not_idle hs with ⟨l, hl⟩ | hl <;> simp [hl, hs, quietPins]

/-- What one step of a session does to its machine and to its counts. -/
theorem Session.step_spec (x : Session) :
    ∃ t, Machine.step x.presented = .next t ∧ x.step.machine = t ∧
      x.step.program = (if x.pins.cmdValid then x.program.tail else x.program) ∧
      x.step.accepted = (if x.pins.cmdValid then x.accepted + 1 else x.accepted) ∧
      x.step.responses = x.responses ++ x.presented.delivered.toList := by
  obtain ⟨t, ht⟩ := stepAlwaysAnswersNext x.presented
  have ht' : Machine.step { x.machine with env := [x.pins] } = .next t := ht
  refine ⟨t, ht, ?_, ?_, ?_, ?_⟩ <;> simp only [Session.step, ht'] <;> rfl

/-- The commands in progress at a state of the Sequencer: one outside IDLE (R75). -/
def St.inProgress (q : St) : Nat := if q = .idle then 0 else 1

/-- R75, R78: outside reset, a step takes in the command it accepts and gives out the response it delivers: what was in
progress or is accepted is in progress after it or answered by it. -/
theorem delivered_balances_accepted (h : step s = .next t) (hr : s.now.rst = false) (hu : s.st.isUnused = false) :
    s.delivered.toList.length + t.st.inProgress =
      s.st.inProgress + (if s.st = .idle ∧ s.now.cmdValid = true then 1 else 0) := by
  cases ha : s.advances with
  | false =>
    have hnone : s.delivered = none := by simp [delivered_of_next h, ha]
    have hidle : s.st = .idle → s.now.cmdValid = false := fun hs => by rw [← advances_of_idle hr hs, ha]
    rw [step_of_not_advances hr hu ha] at h
    cases h
    simp +contextual [hnone, hidle]
  | true =>
    have hidle : s.st = .idle → s.now.cmdValid = true := fun hs => by rw [← advances_of_idle hr hs, ha]
    have hout : s.delivered.toList.length + t.st.inProgress = 1 := by
      by_cases ht : t.st = .idle <;> simp [delivered_of_next h, ha, ht, St.inProgress]
    have hin : s.st.inProgress + (if s.st = .idle ∧ s.now.cmdValid = true then 1 else 0) = 1 := by
      by_cases hs : s.st = .idle <;> simp [hs, hidle, St.inProgress]
    rw [hout, hin]

theorem Session.balanced_iff (x : Session) :
    x.balanced = true ↔ x.responses.length + x.machine.st.inProgress = x.accepted := by
  simp [Session.balanced, St.inProgress]

/-- One step of a session keeps the balance of responses and commands; of the machine it needs only that `st` holds no
unused encoding, whose step acts as a reset (R243). -/
theorem Session.step_balanced (x : Session) (hu : x.machine.st.isUnused = false) (hb : x.balanced = true) :
    x.step.balanced = true := by
  obtain ⟨t, ht, hmachine, -, haccepted, hresponses⟩ := x.step_spec
  have hbalance : x.presented.delivered.toList.length + t.st.inProgress =
      x.machine.st.inProgress + (if x.machine.st = .idle ∧ x.pins.cmdValid = true then 1 else 0) :=
    delivered_balances_accepted ht x.pins_rst hu
  have hidle : x.pins.cmdValid = true → x.machine.st = .idle := fun hv => (x.pins_cmdValid_iff.mp hv).1
  rw [Session.balanced_iff] at hb ⊢
  rw [hmachine, haccepted, hresponses, List.length_append]
  cases hv : x.pins.cmdValid with
  | false =>
    rw [if_neg (by simp [hv])] at hbalance
    rw [if_neg (by simp)]
    omega
  | true =>
    rw [if_pos ⟨hidle hv, hv⟩] at hbalance
    rw [if_pos rfl]
    omega

/-- One step of a session takes from its program the word it accepts. -/
theorem Session.step_accepted_add_program (x : Session) :
    x.step.accepted + x.step.program.length = x.accepted + x.program.length := by
  obtain ⟨t, -, -, hprogram, haccepted, -⟩ := x.step_spec
  rw [hprogram, haccepted]
  cases hv : x.pins.cmdValid with
  | false => rfl
  | true =>
    have hlen := List.length_pos_of_ne_nil (x.pins_cmdValid_iff.mp hv).2
    simp only [if_true, List.length_tail]
    omega

/-- What every step of a session keeps holds after any number of steps. -/
theorem Session.run_keeps {P : Session → Prop} (hstep : ∀ x, P x → P x.step) (n : Nat) (x : Session) (hx : P x) :
    P (Session.run n x) := by
  induction n generalizing x with
  | zero => exact hx
  | succ n ih =>
    rw [Session.run]
    split_ifs
    · exact hx
    · exact ih x.step (hstep x hx)

/-- What a session of `total` command words keeps: its machine holds no unused encoding, its responses balance its
commands, and the words accepted and those left make up the program. -/
structure Session.Counted (total : Nat) (x : Session) : Prop where
  used : x.machine.st.isUnused = false
  balance : x.balanced = true
  words : x.accepted + x.program.length = total

theorem Session.Counted.step {total : Nat} {x : Session} (h : x.Counted total) : x.step.Counted total where
  used := by
    obtain ⟨t, ht, hmachine, -⟩ := x.step_spec
    rw [hmachine]
    exact step_isUnused_eq_false ht h.used
  balance := x.step_balanced h.used h.balance
  words := x.step_accepted_add_program.trans h.words

theorem Session.Counted.start (hu : s.st.isUnused = false) (hs : s.st = .idle) (program : List Byte)
    (script : List BusLine) : (Session.start s program script).Counted program.length where
  used := hu
  balance := by simp [Session.balanced, Session.start, hs]
  words := Nat.zero_add _

/-- Settles O55: the counts hold at the session's start and every step keeps them. -/
theorem oneResponsePerAcceptedCommand : Obligations.OneResponsePerAcceptedCommand := by
  intro n s program script hinv hs
  have h := Session.run_keeps (P := Session.Counted program.length) (fun _ => Session.Counted.step) n _
    (.start hinv.stUsed hs program script)
  exact ⟨(Session.balanced_iff _).mp h.balance, h.words⟩

end Sys2Proof.Machine
end

section
/-! PROOFS. What every step keeps of the state: the response registers, `init_done`, `fault`, the CalibrationSet of an
INITIALIZED block, and the invariant. -/

namespace Sys2Proof.Machine

open Sys2Proof

variable {s t u : State}

/-! ## Reset apart from every other transition -/

/-- Reset is fetched exactly under a raised `rst` or in an unused encoding (R230, R243). -/
theorem fetch_eq_reset_iff (s : State) : s.fetch = .reset ↔ s.now.rst = true ∨ s.st.isUnused = true := by
  constructor
  · intro hreset
    obtain ⟨_, ht⟩ := stepAlwaysAnswersNext s
    obtain ⟨_, hu, -⟩ := step_transition ht
    cases hu with
    | reset why => exact why.imp_right fun ⟨k, hk⟩ => by rw [hk]; rfl
    | _ => rename_i hf; rw [hreset] at hf; cases hf
  · rintro (hr | hu)
    · exact fetch_reset hr
    · cases hs : s.st with
      | unused k => exact fetch_unused hs
      | _ => simp [hs, St.isUnused] at hu

theorem fetch_ne_reset (hr : s.now.rst = false) (hu : s.st.isUnused = false) : s.fetch ≠ .reset := by
  simp [fetch_eq_reset_iff, hr, hu]

theorem Transition.eq_resetStep (h : Transition s u) (hreset : s.fetch = .reset) : u = s.resetStep := by
  cases h with
  | reset => rfl
  | _ => rename_i hf; rw [hreset] at hf; cases hf

/-! ## The response registers -/

/-- A transition that does not end in IDLE is no response: it keeps the response registers, and takes `rsp_valid` away
only by accepting a command (R38, R77). -/
theorem Transition.keeps_response (h : Transition s u) (hreset : s.fetch ≠ .reset) (hidle : u.st ≠ .idle) :
    u.rspStatus = s.rspStatus ∧ u.rspData = s.rspData ∧
      u.rspValid = (s.rspValid && !(decide (s.st = .idle) && s.now.cmdValid)) := by
  cases h with
  | reset _ hf => exact absurd hf hreset
  | beginAccepted _ hs hv | readAccepted _ _ hs hv => simp [hs, hv]
  | noCommand _ hs | illegalWord _ hs | beginRefused _ hs | readRefused _ _ hs => simp [hs] at hidle
  | identityWrong | ctrlNak | avgNak | calLast | pollTimeout | converted | zeroDelta => simp at hidle
  | unanswered _ _ _ hs => simp [hs]
  | identityRight _ hs | ctrlAck _ hs | avgAck _ hs | calRead _ hs | pollReady _ hs | pollUnbounded _ hs
  | pollCounted _ hs | outLow _ hs | outHigh _ hs => simp [hs]

/-- A Sequencer step that ends in IDLE has responded (R77, R78). -/
theorem Transition.rspValid_of_idle (h : Transition s u) (ha : s.advances = true) (hidle : u.st = .idle) :
    u.rspValid = true := by
  cases h with
  | reset _ hf | noCommand _ _ _ hf => simp [State.advances, hf] at ha
  | unanswered _ _ _ hs => exact absurd hidle hs.1
  | calRead _ hs | pollUnbounded _ hs | pollCounted _ hs => simp [hs] at hidle
  | beginAccepted | readAccepted | identityRight | ctrlAck | avgAck | pollReady | outLow | outHigh => cases hidle
  | _ => rfl

theorem delivered_eq_some_iff (h : step s = .next t) (r : BitVec 3 × Word) :
    s.delivered = some r ↔ s.advances = true ∧ t.st = .idle ∧ (t.rspStatus, t.rspData) = r := by
  simp [delivered_of_next h, and_assoc]

theorem delivered_eq_none_iff (h : step s = .next t) :
    s.delivered = none ↔ (s.advances = true → t.st ≠ .idle) := by
  simp [delivered_of_next h]

/-- Settles O48: a hold keeps the registers, and of the Sequencer steps those that end in IDLE are the responses. -/
theorem onlyResponsesWriteTheResponse : Obligations.OnlyResponsesWriteTheResponse := by
  intro s t h hr hused
  obtain ⟨u, hu, rfl⟩ := step_transition h
  refine ⟨fun hnone => ?_, fun code data hsome => ?_⟩
  · cases ha : s.advances with
    | true => exact hu.keeps_response (fetch_ne_reset hr hused) ((delivered_eq_none_iff h).mp hnone ha)
    | false =>
      have hv : s.st = .idle → s.now.cmdValid = false := fun hs => by rw [← advances_of_idle hr hs, ha]
      rw [step_of_not_advances hr hused ha] at h
      rw [← Host.Outcome.next.inj h]
      by_cases hs : s.st = .idle <;> simp [hs, hv]
  · obtain ⟨ha, hidle, hregs⟩ := (delivered_eq_some_iff h _).mp hsome
    obtain ⟨hcode, hdata⟩ := Prod.mk.inj hregs
    exact ⟨hu.rspValid_of_idle ha hidle, hcode, hdata⟩

/-! ## `init_done` -/

/-- Of the transitions but reset, the last calibration read alone writes `init_done` (R23, R106): the others start outside
INIT_CAL, find no answer, or find `cal_idx` below 12. -/
theorem Transition.initDone_eq (h : Transition s u) (hreset : s.fetch ≠ .reset) :
    u.initDone = (s.initDone || decide (s.st = .initCal ∧ s.calIdx = 12 ∧ s.now.busRspValid = true)) := by
  cases h with
  | reset _ hf => exact absurd hf hreset
  | calLast _ hs hv hi => simp [hs, hv, hi]
  | calRead _ hs _ hi =>
    have h12 : s.calIdx ≠ 12 := by intro h; simp [h] at hi
    simp [h12]
  | _ => simp [*]

/-- Settles O49: reset leaves `init_done` 0, and every other transition gives it the value of `initDone_eq`. -/
theorem initDoneSetOnlyByLastRead : Obligations.InitDoneSetOnlyByLastRead := by
  intro s t h
  obtain ⟨u, hu, rfl⟩ := step_transition h
  by_cases hreset : s.fetch = .reset
  · have hclear : u.initDone = false := by rw [hu.eq_resetStep hreset]; rfl
    exact ⟨fun _ hset => by simp [hclear] at hset, fun _ _ => (fetch_eq_reset_iff s).mp hreset⟩
  · have heq := hu.initDone_eq hreset
    have hr : s.now.rst = false := by simpa using mt fetch_reset hreset
    exact ⟨fun h0 h1 => by simpa [heq, h0, hr] using h1, fun h1 h0 => by simp [heq, h1] at h0⟩

/-! ## `fault` -/

/-- Of the transitions but reset, the conversion with a zero delta alone writes `fault` (R39, R204, R212): the others start
outside RD_CONV, or find a delta that is not zero. -/
theorem Transition.fault_eq (h : Transition s u) (hreset : s.fetch ≠ .reset) :
    u.fault = (s.fault || decide (s.st = .rdConv ∧ s.cal.zeroDelta s.chan = true)) := by
  cases h with
  | reset _ hf => exact absurd hf hreset
  | zeroDelta _ hs hz => simp [hs, CalibrationSet.zeroDelta, hz, Status.recordsFault]
  | converted _ hs hz => simp [CalibrationSet.zeroDelta, hz]
  | _ => simp [*, Status.recordsFault]

/-- Settles O50: reset leaves `fault` 0, and every other transition gives it the value of `fault_eq`. -/
theorem faultIsSticky : Obligations.FaultIsSticky := by
  intro s t h
  obtain ⟨u, hu, rfl⟩ := step_transition h
  by_cases hreset : s.fetch = .reset
  · have hclear : u.fault = false := by rw [hu.eq_resetStep hreset]; rfl
    have hwhy := (fetch_eq_reset_iff s).mp hreset
    refine ⟨fun _ _ => hwhy, fun _ => ⟨fun hset => by simp [hclear] at hset, ?_⟩⟩
    rintro ⟨hr, hs, -⟩
    simp [hr, hs, St.isUnused] at hwhy
  · have heq := hu.fault_eq hreset
    have hr : s.now.rst = false := by simpa using mt fetch_reset hreset
    exact ⟨fun h1 h0 => by simp [heq, h1] at h0, fun h0 => by simp [heq, h0, hr]⟩

end Sys2Proof.Machine
end

section
/-! PROOFS. The invariant is kept by every step, and with it the CalibrationSet of an INITIALIZED block. -/

namespace Sys2Proof.Machine

open Sys2Proof

variable {s t u : State}

/-! ## The temperature codes keep their 10 bits -/

theorem assembleHalf_toNat (hi lo : Byte) : (assembleHalf hi lo).toNat = hi.toNat * 256 + lo.toNat := by
  rw [assembleHalf, BitVec.toNat_append, ← Nat.shiftLeft_add_eq_or_of_lt lo.isLt, Nat.shiftLeft_eq]

theorem setLow_lt_1024 {x : Half} (hx : x.toNat < 1024) (b : Byte) : (setLow x b).toNat < 1024 := by
  have hhi : (x.extractLsb' 8 8).toNat = x.toNat / 256 % 256 := by
    simp [BitVec.extractLsb'_toNat, Nat.shiftRight_eq_div_pow]
  have hlo := b.isLt
  rw [setLow, assembleHalf_toNat, hhi]
  omega

theorem setHigh_lt_1024 (x : Half) (b : BitVec 2) : (setHigh x (b.setWidth 8)).toNat < 1024 := by
  have hhi : (b.setWidth 8).toNat < 4 := by
    rw [BitVec.toNat_setWidth_of_le (by omega)]
    exact b.isLt
  have hlo := (x.extractLsb' 0 8).isLt
  rw [setHigh, assembleHalf_toNat]
  omega

/-- A calibration read puts two bits into the high byte of each temperature code, and nothing else there (R30, R59). -/
theorem capture_codes_lt {c : CalibrationSet} (h0 : c.T0_degC_x8.toNat < 1024) (h1 : c.T1_degC_x8.toNat < 1024)
    (i : Fin 13) (b : Byte) :
    (capture i b c).T0_degC_x8.toNat < 1024 ∧ (capture i b c).T1_degC_x8.toNat < 1024 := by
  unfold capture
  split
  case h_3 => exact ⟨setLow_lt_1024 h0 b, h1⟩
  case h_4 => exact ⟨h0, setLow_lt_1024 h1 b⟩
  case h_5 => exact ⟨setHigh_lt_1024 _ _, setHigh_lt_1024 _ _⟩
  all_goals exact ⟨h0, h1⟩

/-! ## Status codes and the states of a command in progress -/

theorem Status.code_toNat_le (c : Status) : c.code.toNat ≤ 4 := by cases c <;> decide

theorem Status.code_eq_divZero_iff (c : Status) : c.code = 3 ↔ c = .divZero := by cases c <;> simp [Status.code]

theorem Status.code_eq_timeout_iff (c : Status) : c.code = 4 ↔ c = .timeout := by cases c <;> simp [Status.code]

theorem Status.recordsFault_iff (c : Status) : c.recordsFault = true ↔ c = .divZero := by
  cases c <;> simp [Status.recordsFault]

theorem St.isUnused_eq_false_of_inProgress {q : St} (hq : q.inBegin = true ∨ q.inReading = true) :
    q.isUnused = false := by
  cases q <;> simp [St.isUnused, St.inBegin, St.inReading] at hq ⊢

theorem St.not_inBegin_and_inReading (q : St) : ¬ (q.inBegin = true ∧ q.inReading = true) := by
  cases q <;> simp [St.inBegin, St.inReading]

/-! ## What the invariant says of a state of the Sequencer -/

theorem Invariant.rspValid_eq_false (h : Invariant s) (hs : s.st ≠ .idle) : s.rspValid = false := by
  simpa using mt h.responseInIdle hs

theorem Invariant.fault_eq_false (h : Invariant s) (hi : s.initDone = false) : s.fault = false := by
  by_contra hf
  have := (h.faultFromZeroDelta (by simpa using hf)).1
  simp [hi] at this

theorem Invariant.st_ne_initCal (h : Invariant s) (hi : s.initDone = true) : s.st ≠ .initCal := by
  intro hs
  simp [h.beginUninitialized (by rw [hs]; rfl)] at hi

/-! ## The updates of a step keep the invariant -/

theorem Invariant.tick (h : Invariant s) : Invariant s.tick := { h with }

theorem Invariant.accept (h : Invariant s) : Invariant s.accept :=
  { h with responseInIdle := by simp }

theorem Invariant.driveIp (h : Invariant s) (o : IpOut) : Invariant (s.driveIp o) := { h with }

theorem Invariant.resetStep (s : State) : Invariant s.resetStep := by
  constructor <;> simp [St.isUnused, St.inBegin, St.inReading, CalibrationSet.zero]

/-- A response is legal when an error has data 0, TIMEOUT has a limit and DIV_ZERO has left `fault` set (R80, R204, R205).
-/
theorem Invariant.respond (h : Invariant s) (hcal : s.st ≠ .initCal) {c : Status} {d : Word} (hdata : c ≠ .ok → d = 0)
    (hlimit : c = .timeout → s.params.pollLimit ≠ 0) (hfault : c = .divZero → s.fault = true) :
    Invariant (s.respond c d) :=
  { h with
    stUsed := rfl
    beginUninitialized := nofun
    readingInitialized := nofun
    calIdxZero := fun _ => h.calIdxZero hcal
    responseInIdle := fun _ => rfl
    statusLegal := c.code_toNat_le
    errorDataZero := fun hc => hdata (by rintro rfl; exact hc rfl)
    timeoutLimited := fun hc => hlimit (c.code_eq_timeout_iff.mp hc)
    calUnread := fun hi _ => h.calUnread hi hcal
    divZeroFault := fun hc => hfault (c.code_eq_divZero_iff.mp hc) }

/-- Recording a fault needs a zero delta in the CalibrationSet of an INITIALIZED block (R39). -/
theorem Invariant.recordFault (h : Invariant s) {b : Bool}
    (hb : b = true → s.initDone = true ∧ ∃ ch, s.cal.zeroDelta ch = true) :
    Invariant { s with fault := s.fault || b } :=
  { h with
    faultFromZeroDelta := fun hf => (Bool.or_eq_true_iff.mp hf).elim h.faultFromZeroDelta hb
    divZeroFault := fun hc => by simp [h.divZeroFault hc] }

/-- An error entry is the record of a fault and a response with data 0 (R200). -/
theorem Invariant.raiseError (h : Invariant s) (hcal : s.st ≠ .initCal) {c : Status}
    (hlimit : c = .timeout → s.params.pollLimit ≠ 0)
    (hzero : c = .divZero → s.initDone = true ∧ ∃ ch, s.cal.zeroDelta ch = true) : Invariant (s.raiseError c) := by
  have hrecord : Invariant { s with fault := s.fault || c.recordsFault } :=
    h.recordFault fun hc => hzero (c.recordsFault_iff.mp hc)
  exact hrecord.respond hcal (fun _ => rfl) hlimit (by rintro rfl; simp [Status.recordsFault])

/-- Entering a state of a command in progress needs the lifecycle state of that command, and no response (R38, R83). -/
theorem Invariant.enter (h : Invariant s) (hcal : s.st ≠ .initCal) (hrsp : s.rspValid = false) {q : St}
    (hq : q.inBegin = true ∧ s.initDone = false ∨ q.inReading = true ∧ s.initDone = true) :
    Invariant { s with st := q } :=
  { h with
    stUsed := St.isUnused_eq_false_of_inProgress (hq.imp And.left And.left)
    beginUninitialized := fun hb => hq.elim And.right fun hr => absurd ⟨hb, hr.1⟩ q.not_inBegin_and_inReading
    readingInitialized := fun hr => hq.elim (fun hb => absurd ⟨hb.1, hr⟩ q.not_inBegin_and_inReading) And.right
    calIdxZero := fun _ => h.calIdxZero hcal
    responseInIdle := fun hv => by simp [hrsp] at hv
    calUnread := fun hi _ => h.calUnread hi hcal }

/-- From one state of BEGIN to the next. -/
theorem Invariant.enterBegin (h : Invariant s) {q : St} (hs : s.st.inBegin = true) (hcal : s.st ≠ .initCal)
    (hq : q.inBegin = true) : Invariant { s with st := q } :=
  h.enter hcal (h.rspValid_eq_false (by intro hidle; simp [hidle, St.inBegin] at hs))
    (.inl ⟨hq, h.beginUninitialized hs⟩)

/-- From one state of a reading to the next. -/
theorem Invariant.enterReading (h : Invariant s) {q : St} (hs : s.st.inReading = true) (hq : q.inReading = true) :
    Invariant { s with st := q } :=
  have hi := h.readingInitialized hs
  h.enter (h.st_ne_initCal hi) (h.rspValid_eq_false (by intro hidle; simp [hidle, St.inReading] at hs)) (.inr ⟨hq, hi⟩)

/-- A poll counted stays below the limit it has not reached (R26). -/
theorem Invariant.countPoll (h : Invariant s) (hl : s.params.pollLimit ≠ 0)
    (hn : s.pollCnt.toNat + 1 ≠ s.params.pollLimit.toNat) : Invariant { s with pollCnt := s.pollCnt + 1 } :=
  { h with
    pollBound := by
      have hbound := h.pollBound
      have hlimit := s.params.pollLimit.isLt
      have hpos : s.params.pollLimit.toNat ≠ 0 := fun h0 => hl (BitVec.eq_of_toNat_eq h0)
      have hadd : (s.pollCnt + 1).toNat = s.pollCnt.toNat + 1 :=
        BitVec.toNat_add_of_lt (y := 1) (show s.pollCnt.toNat + 1 < 2 ^ 32 by omega)
      show (s.pollCnt + 1).toNat ≤ s.params.pollLimit.toNat - 1
      omega }

/-- A calibration read writes the CalibrationSet of a block that has recorded no fault (R105). -/
theorem Invariant.captureByte (h : Invariant s) (hs : s.st = .initCal) (i j : Fin 13) (b : Byte) :
    Invariant { s with cal := capture i b s.cal, calIdx := j } :=
  have hfault := h.fault_eq_false (h.beginUninitialized (by rw [hs]; rfl))
  { h with
    calIdxZero := fun hne => absurd hs hne
    codeT0 := (capture_codes_lt h.codeT0 h.codeT1 i b).1
    codeT1 := (capture_codes_lt h.codeT0 h.codeT1 i b).2
    calUnread := fun _ hne => absurd hs hne
    faultFromZeroDelta := fun hf => by simp [hfault] at hf }

/-- The end of INIT_CAL leaves an INITIALIZED block in IDLE (R106). -/
theorem Invariant.completeBegin (h : Invariant s) (hs : s.st = .initCal) :
    Invariant { s with calIdx := 0, initDone := true, st := .idle } :=
  have hfault := h.fault_eq_false (h.beginUninitialized (by rw [hs]; rfl))
  { h with
    stUsed := rfl
    beginUninitialized := nofun
    readingInitialized := fun _ => rfl
    calIdxZero := fun _ => rfl
    responseInIdle := fun _ => rfl
    calUnread := nofun
    faultFromZeroDelta := fun hf => by simp [hfault] at hf }

/-- A command accepted and refused (R203). -/
theorem Invariant.refuse (h : Invariant s) (hs : s.st = .idle) : Invariant (s.accept.raiseError .illegalCmd) :=
  h.accept.raiseError (by simp [hs]) nofun nofun

/-- An error of BEGIN before its calibration reads (R202). -/
theorem Invariant.failBegin (h : Invariant s) (hcal : s.st ≠ .initCal) : Invariant (s.raiseError .initFail) :=
  h.raiseError hcal nofun nofun

/-! ## Every step keeps the invariant -/

theorem Transition.keeps_invariant (h : Transition s u) (hinv : Invariant s) : Invariant u := by
  cases h with
  | reset => exact .resetStep s
  | noCommand | unanswered | pollUnbounded => exact hinv
  | illegalWord _ hs | beginRefused _ hs | readRefused _ _ hs => exact hinv.refuse hs
  | beginAccepted _ hs _ _ hi => exact hinv.accept.enter (by simp [hs]) rfl (.inl ⟨rfl, hi⟩)
  | readAccepted c _ hs _ _ hi =>
    have hstart : Invariant { s.accept with chan := c, pollCnt := 0 } :=
      { hinv.accept with pollBound := Nat.zero_le _ }
    exact hstart.enter (by simp [hs]) rfl (.inr ⟨rfl, hi⟩)
  | identityRight _ hs | ctrlAck _ hs => exact hinv.enterBegin (by rw [hs]; rfl) (by simp [hs]) rfl
  | identityWrong _ hs | ctrlNak _ hs | avgNak _ hs => exact hinv.failBegin (by simp [hs])
  | avgAck _ hs =>
    have hfirst : Invariant { s with calIdx := 0 } := { hinv with calIdxZero := fun _ => rfl }
    exact hfirst.enterBegin (by simp [hs, St.inBegin]) (by simp [hs]) rfl
  | calRead _ hs => exact hinv.captureByte hs _ _ _
  | calLast _ hs =>
    exact ((hinv.captureByte hs 12 0 _).completeBegin hs).respond nofun (fun _ => rfl) nofun nofun
  | pollReady _ hs => exact hinv.enterReading (by rw [hs]; rfl) rfl
  | pollTimeout _ hs _ _ hl => exact hinv.raiseError (by simp [hs]) (fun _ => hl) nofun
  | pollCounted _ _ _ _ hl hn => exact hinv.countPoll hl hn
  | outLow _ hs =>
    have hbyte : Invariant { s with rawLo := s.now.busRspRdata } := { hinv with }
    exact hbyte.enterReading (by simp [hs, St.inReading]) rfl
  | outHigh _ hs =>
    have hhalf : Invariant { s with raw := assembleHalf s.now.busRspRdata s.rawLo } := { hinv with }
    exact hhalf.enterReading (by simp [hs, St.inReading]) rfl
  | converted _ hs => exact (hinv.driveIp _).respond (by simp [hs]) (fun hc => absurd rfl hc) nofun nofun
  | zeroDelta _ hs hz =>
    have hi := hinv.readingInitialized (by rw [hs]; rfl)
    exact (hinv.driveIp _).raiseError (by simp [hs]) nofun fun _ => ⟨hi, s.chan, by simp [CalibrationSet.zeroDelta, hz]⟩

/-- Settles O52, by the transition the step makes: each is made of updates that keep the invariant. -/
theorem stepKeepsInvariant : Obligations.StepKeepsInvariant := by
  intro s t hinv h
  obtain ⟨u, hu, rfl⟩ := step_transition h
  exact (hu.keeps_invariant hinv).tick

/-! ## Runs without reset -/

/-- The inputs to come after a step are those that were one step further on. -/
theorem step_pinsAt (h : step s = .next t) (k : Nat) : t.pinsAt k = s.pinsAt (k + 1) := by
  obtain ⟨u, hu, rfl⟩ := step_transition h
  obtain ⟨-, henv, hclock⟩ := hu.keeps_environment
  rw [State.tick_pinsAt, State.pinsAt, State.pinsAt, henv, hclock]

theorem run_succ_of_next (h : step s = .next t) (n : Nat) : run (n + 1) s = run n t := by
  simp [run, h]

/-- What every step that is no reset keeps holds after any run without reset. -/
theorem run_keeps {P : State → Prop} (hstep : ∀ s t, P s → s.now.rst = false → step s = .next t → P t) (n : Nat)
    (s t : State) (hs : P s) (hr : ∀ k < n, (s.pinsAt k).rst = false) (h : run n s = .next t) : P t := by
  induction n generalizing s with
  | zero => cases h; exact hs
  | succ n ih =>
    obtain ⟨v, hv⟩ := stepAlwaysAnswersNext s
    have hnow : s.now.rst = false := by rw [← State.pinsAt_zero]; exact hr 0 n.succ_pos
    rw [run_succ_of_next hv] at h
    refine ih v (hstep s v hs hnow hv) (fun k hk => ?_) h
    rw [step_pinsAt hv]
    exact hr (k + 1) (by omega)

/-! ## The CalibrationSet of an INITIALIZED block -/

/-- Outside INIT_CAL no transition but reset writes the CalibrationSet (R33, R105). -/
theorem Transition.keeps_cal (h : Transition s u) (hreset : s.fetch ≠ .reset) (hcal : s.st ≠ .initCal) :
    u.cal = s.cal := by
  cases h with
  | reset _ hf => exact absurd hf hreset
  | calRead _ hs | calLast _ hs => exact absurd hs hcal
  | _ => rfl

/-- An INITIALIZED block with a given CalibrationSet, at a state that meets the invariant. -/
structure Calibrated (c : CalibrationSet) (s : State) : Prop where
  invariant : Invariant s
  initialized : s.initDone = true
  holds : s.cal = c

theorem Calibrated.step {c : CalibrationSet} (h : Calibrated c s) (hr : s.now.rst = false)
    (hstep : Machine.step s = .next t) : Calibrated c t := by
  obtain ⟨u, hu, rfl⟩ := step_transition hstep
  have hreset := fetch_ne_reset hr h.invariant.stUsed
  exact {
    invariant := (hu.keeps_invariant h.invariant).tick
    initialized := by simp [hu.initDone_eq hreset, h.initialized]
    holds := (hu.keeps_cal hreset (h.invariant.st_ne_initCal h.initialized)).trans h.holds }

/-- Settles O53: every step of the run that is no reset finds the block INITIALIZED, hence outside INIT_CAL. -/
theorem calibrationIsImmutable : Obligations.CalibrationIsImmutable := by
  intro n s t hinv hi hr h
  have hend : Calibrated s.cal t := run_keeps (fun _ _ hc => hc.step) n s t ⟨hinv, hi, rfl⟩ hr h
  exact ⟨hend.holds, hend.initialized⟩

end Sys2Proof.Machine
end

section
/-! PROOFS. The sensor's memory: how thirteen captured bytes become the CalibrationSet, which registers the requests
address, and that requests are answered in the order they are issued. -/

namespace Sys2Proof.Machine

open Sys2Proof

variable {s t : State} {q : BusReq}

/-! ## The requests issued and the requests answered -/

theorem busReq_of_isUnused (hu : s.st.isUnused = true) : s.busReq = none := by
  cases hs : s.st with
  | unused k => simp [State.busReq, hs]
  | _ => simp [hs, St.isUnused] at hu

/-- Outside reset, a step that is no Sequencer step leaves the request presented as it was (R10); an unused encoding
presents none, and none is presented after the reset it acts as (R243). -/
theorem busReq_eq_of_not_advances (h : step s = .next t) (hr : s.now.rst = false) (ha : s.advances = false) :
    t.busReq = s.busReq := by
  cases hu : s.st.isUnused with
  | true =>
    rw [step_of_reset ((fetch_eq_reset_iff s).mpr (.inr hu))] at h
    cases h
    rw [busReq_of_isUnused hu, busReq_of_idle rfl]
  | false =>
    rw [step_of_not_advances hr hu ha] at h
    cases h
    rfl

/-- One step without reset: a Sequencer step answers the request presented and issues the next; any other step does
neither (R50, R81). -/
theorem busReq_append_issued (h : step s = .next t) (hr : s.now.rst = false) :
    s.busReq.toList ++ s.issued.toList = s.answered.toList ++ t.busReq.toList := by
  cases ha : s.advances with
  | true => simp [issued_of_next h, State.answered, ha]
  | false => simp [issued_of_next h, State.answered, ha, busReq_eq_of_not_advances h hr ha]

/-- Settles O57, by induction on the length of the run: the request presented between the first step and the rest is
what the first step issued or left, and what the rest begins with. -/
theorem requestsIssuedAreAnsweredInOrder : Obligations.RequestsIssuedAreAnsweredInOrder := by
  intro n s t hr h
  induction n generalizing s with
  | zero => cases h; simp [trace, answeredIn]
  | succ n ih =>
    obtain ⟨v, hv⟩ := stepAlwaysAnswersNext s
    have hnow : s.now.rst = false := by rw [← State.pinsAt_zero]; exact hr 0 n.succ_pos
    have hrest : v.busReq.toList ++ (trace n v).requests = answeredIn n v ++ t.busReq.toList :=
      ih v (fun k hk => by rw [step_pinsAt hv]; exact hr (k + 1) (by omega)) (by rwa [run_succ_of_next hv] at h)
    rw [trace_succ_of_next hv, answeredIn_succ_of_next hv]
    calc s.busReq.toList ++ (s.issued.toList ++ (trace n v).requests)
      _ = s.answered.toList ++ (v.busReq.toList ++ (trace n v).requests) := by
        rw [← List.append_assoc, busReq_append_issued hv hnow, List.append_assoc]
      _ = s.answered.toList ++ answeredIn n v ++ t.busReq.toList := by rw [hrest, List.append_assoc]

/-! ## The calibration bytes -/

theorem assembleHalf_eq_ofNat (hi lo : Byte) : assembleHalf hi lo = BitVec.ofNat 16 (hi.toNat * 256 + lo.toNat) := by
  rw [← assembleHalf_toNat, BitVec.ofNat_toNat, BitVec.setWidth_eq]

/-- Both bytes written, nothing of the field before remains (R57). -/
theorem setHigh_setLow (x : Half) (lo hi : Byte) :
    setHigh (setLow x lo) hi = BitVec.ofNat 16 (hi.toNat * 256 + lo.toNat) := by
  have hlow : (setLow x lo).extractLsb' 0 8 = lo := BitVec.extractLsb'_append_eq_right
  rw [setHigh, hlow, assembleHalf_eq_ofNat]

/-- The two bits of T1_T0_MSB that belong to a temperature code, widened to its high byte (R59). -/
theorem setWidth_extractLsb'_toNat (b : Byte) (k : Nat) :
    ((b.extractLsb' k 2).setWidth 8).toNat = b.toNat / 2 ^ k % 4 := by
  rw [BitVec.toNat_setWidth_of_le (by omega), BitVec.extractLsb'_toNat, Nat.shiftRight_eq_div_pow]

/-- The thirteen captures in R85's order: each field is written in whole, the 16-bit ones low byte first. -/
theorem foldl_capture (c : CalibrationSet) (b : Fin 13 → Byte) :
    (List.finRange 13).foldl (fun c i => capture i (b i) c) c =
      { H0_rH_x2 := b 0
        H1_rH_x2 := b 1
        T0_degC_x8 := setHigh (setLow c.T0_degC_x8 (b 2)) (((b 4).extractLsb' 0 2).setWidth 8)
        T1_degC_x8 := setHigh (setLow c.T1_degC_x8 (b 3)) (((b 4).extractLsb' 2 2).setWidth 8)
        H0_T0_OUT := setHigh (setLow c.H0_T0_OUT (b 5)) (b 6)
        H1_T0_OUT := setHigh (setLow c.H1_T0_OUT (b 7)) (b 8)
        T0_OUT := setHigh (setLow c.T0_OUT (b 9)) (b 10)
        T1_OUT := setHigh (setLow c.T1_OUT (b 11)) (b 12) } := rfl

/-- Settles O20: each 16-bit field is the value of the two bytes written into it. -/
theorem ingestionAssemblesCalibration : Obligations.IngestionAssemblesCalibration := by
  intro c b
  simp only [foldl_capture, setHigh_setLow, setWidth_extractLsb'_toNat, calFromBytes, Nat.reducePow, Nat.div_one]

/-! ## The registers addressed -/

/-- The registers the block reads (R55, R84): identity, status, the raw outputs and the calibration registers. -/
def readAddrs : List Byte := [0x0F, 0x27, 0x28, 0x29, 0x2A, 0x2B] ++ calAddrs

theorem calAddr_mem (i : Fin 13) : calAddr i ∈ readAddrs := by
  revert i; decide

theorem outAddr_mem (c : Channel) : outLAddr c ∈ readAddrs ∧ outHAddr c ∈ readAddrs := by
  cases c <;> decide

/-- A request presented is one of the two configuration writes or a read (R84). -/
theorem busReq_cases (h : s.busReq = some q) :
    q = writeReq s.params 0x20 s.params.ctrlReg1Val ∨ q = writeReq s.params 0x10 s.params.avConfVal ∨
      ∃ a ∈ readAddrs, q = readReq s.params a := by
  cases hs : s.st <;> simp only [State.busReq, hs, Option.some.injEq, reduceCtorEq] at h <;> subst h
  case initCtrl => exact .inl rfl
  case initAvg => exact .inr (.inl rfl)
  case initId => exact .inr (.inr ⟨_, by decide, rfl⟩)
  case initCal => exact .inr (.inr ⟨_, calAddr_mem _, rfl⟩)
  case rdPoll => exact .inr (.inr ⟨_, by decide, rfl⟩)
  case rdOutL => exact .inr (.inr ⟨_, (outAddr_mem _).1, rfl⟩)
  case rdOutH => exact .inr (.inr ⟨_, (outAddr_mem _).2, rfl⟩)

/-- The two registers the block writes are never read (R55). -/
theorem not_written_of_mem_readAddrs : ∀ a ∈ readAddrs, ¬(a = 0x20 ∨ a = 0x10) := by
  decide

/-- The registers read and the two written are in the map, and none is 0x34, 0x38 or 0x39 (R54, R55). -/
theorem addrs_mapped : ∀ a ∈ 0x20 :: 0x10 :: readAddrs,
    a ∈ ([0x0F, 0x10, 0x20, 0x27, 0x28, 0x29, 0x2A, 0x2B] ++ calAddrs : List Byte) ∧
      a ≠ 0x34 ∧ a ≠ 0x38 ∧ a ≠ 0x39 := by
  decide

/-- Settles O45, by the three kinds of request a state presents. -/
theorem onlyMappedRegistersAddressed : Obligations.OnlyMappedRegistersAddressed := by
  intro s q h
  rcases busReq_cases h with rfl | rfl | ⟨a, ha, rfl⟩
  · exact ⟨rfl, iff_of_true rfl (.inl rfl), nofun, addrs_mapped 0x20 (by simp)⟩
  · exact ⟨rfl, iff_of_true rfl (.inr rfl), nofun, addrs_mapped 0x10 (by simp)⟩
  · exact ⟨rfl, iff_of_false nofun (not_written_of_mem_readAddrs a ha), fun _ => rfl, addrs_mapped a (by simp [ha])⟩

end Sys2Proof.Machine
end

section
/-! PROOFS. Encodings: the decoder and the encoder of both ports (R72 to R76, R86, R87), the calibration read table (R85)
and the bus requests (R84). -/

namespace Sys2Proof.Machine

open Sys2Proof

variable {s : State}

/-! ## Decoding and encoding -/

/-- Settles O1: the three words of the opcode map by evaluation, every other word by `decodeCmd_illegal`. -/
theorem commandDecoderIsTheOpcodeMap : Obligations.CommandDecoderIsTheOpcodeMap := by
  intro w
  split_ifs with h1 h2 h3
  · rw [h1]; rfl
  · rw [h2]; rfl
  · rw [h3]; rfl
  · exact decodeCmd_illegal w h1 h2 h3

theorem decode_encode (i : Instr) : decode (encode i) = .ok i := by
  cases i with
  | begin | readTemp | readHum => rfl
  | interpTemp | interpHum => rw [encode, decode, decodeIp_ipBundle]; rfl

/-- A command word decodes to no instruction but the one it encodes (R76). -/
theorem encode_of_decodeCmd {w : Byte} {i : Instr} (h : decodeCmd w = .ok i) : encode i = .cmd8 w := by
  rw [commandDecoderIsTheOpcodeMap w] at h
  split_ifs at h with h1 h2 h3 <;> cases h
  · rw [h1]; rfl
  · rw [h2]; rfl
  · rw [h3]; rfl

/-- The six fields the decoder reads are consecutive and leave out no bit of the bundle (R86; log entry 8). -/
theorem ipBundle_extractLsb' (p : BitVec 69) :
    ipBundle (p.extractLsb' 0 1) (p.extractLsb' 1 16) (p.extractLsb' 17 16) (p.extractLsb' 33 16)
      (p.extractLsb' 49 10) (p.extractLsb' 59 10) = p := by
  unfold ipBundle
  iterate 5 rw [BitVec.extractLsb'_append_extractLsb'_eq_extractLsb']
  · exact BitVec.extractLsb'_eq_self
  all_goals rfl

/-- Both values of `ip_op` are legal, so every bundle is the encoding of what it decodes to (R87). -/
theorem encode_decodeIp (p : BitVec 69) : encode (decodeIp p) = .ipop1 p := by
  have hbundle := ipBundle_extractLsb' p
  unfold decodeIp
  split_ifs with hop
  · rw [encode, ← hop, hbundle]
  · have hone : p.extractLsb' 0 1 = 1 := (BitVec.eq_zero_or_eq_one _).resolve_left hop
    rw [encode, ← hone, hbundle]

theorem encode_of_decode {p : PortWord} {i : Instr} (h : decode p = .ok i) : encode i = p := by
  cases p with
  | cmd8 w => exact encode_of_decodeCmd h
  | ipop1 p => rw [← Except.ok.inj h, encode_decodeIp]

/-- Settles O3: the decoder and the encoder are inverse to each other, port by port. -/
theorem decodeIffEncode : Obligations.DecodeIffEncode := by
  intro p i
  constructor
  · exact fun h => (encode_of_decode h).symm
  · rintro rfl
    exact decode_encode i

/-- Settles O2: each legal word is the encoding of its instruction, and 0x11 is no command's word. -/
theorem sampleWordsDecode : Obligations.SampleWordsDecode := by
  refine ⟨decode_encode .begin, decode_encode .readTemp, decode_encode .readHum,
    decodeCmd_illegal 0x11 (by decide) (by decide) (by decide), ?_, ?_⟩
  · exact (decodeIffEncode _ _).mpr (by decide)
  · exact (decodeIffEncode _ _).mpr (by decide)

/-! ## The calibration read table -/

theorem assembleHalf_extractLsb' (x : Half) : assembleHalf (x.extractLsb' 8 8) (x.extractLsb' 0 8) = x :=
  BitVec.extractLsb'_append_extractLsb' (w := 8) (len := 8)

/-- `x[7:0] <- b` in masks: the high byte stays. -/
theorem setLow_eq_or (x : Half) (b : Byte) : setLow x b = (x &&& 0xFF00) ||| b.setWidth 16 := by
  have hmask : (0xFF00 : Half) = BitVec.allOnes 8 ++ 0#8 := by decide
  have hbyte : b.setWidth 16 = 0#8 ++ b := by rw [BitVec.setWidth_eq_append (by omega), BitVec.cast_eq]
  calc setLow x b
    _ = (assembleHalf (x.extractLsb' 8 8) (x.extractLsb' 0 8) &&& (BitVec.allOnes 8 ++ 0#8)) ||| (0#8 ++ b) := by
      rw [setLow, assembleHalf, assembleHalf, BitVec.and_append, BitVec.or_append, BitVec.and_allOnes, BitVec.and_zero,
        BitVec.or_zero, BitVec.zero_or]
    _ = (x &&& 0xFF00) ||| b.setWidth 16 := by rw [assembleHalf_extractLsb', hmask, hbyte]

/-- `x[15:8] <- b` in masks and shifts: the low byte stays. -/
theorem setHigh_eq_or (x : Half) (b : Byte) : setHigh x b = (x &&& 0x00FF) ||| (b.setWidth 16 <<< 8) := by
  have hmask : ((0x00FF : Nat) : Half) = 0#8 ++ BitVec.allOnes 8 := by decide
  have hbyte : b.setWidth 16 <<< 8 = b ++ 0#8 := by
    simpa using (BitVec.setWidth_append_eq_shiftLeft_setWidth_or (w'' := 16) (b := b) (b' := 0#8)).symm
  calc setHigh x b
    _ = (assembleHalf (x.extractLsb' 8 8) (x.extractLsb' 0 8) &&& (0#8 ++ BitVec.allOnes 8)) ||| (b ++ 0#8) := by
      rw [setHigh, assembleHalf, assembleHalf, BitVec.and_append, BitVec.or_append, BitVec.and_allOnes, BitVec.and_zero,
        BitVec.or_zero, BitVec.zero_or]
    _ = (x &&& 0x00FF) ||| (b.setWidth 16 <<< 8) := by rw [assembleHalf_extractLsb', hmask, hbyte]

/-- The two bits of T1_T0_MSB that belong to a temperature code, in masks and shifts (R59). -/
theorem setWidth_extractLsb'_eq_and (b : Byte) (k : Nat) : (b.extractLsb' k 2).setWidth 8 = (b >>> k) &&& 3 := by
  apply BitVec.eq_of_toNat_eq
  rw [setWidth_extractLsb'_toNat, BitVec.toNat_and, BitVec.toNat_ushiftRight, Nat.shiftRight_eq_div_pow]
  exact (Nat.and_two_pow_sub_one_eq_mod _ 2).symm

/-- Settles O19: each capture is the byte write R85 names, and byte writes are masks and shifts. -/
theorem calibrationTable : Obligations.CalibrationTable := by
  refine ⟨by decide, fun c b => ?_⟩
  simp only [capture, setLow_eq_or, setHigh_eq_or, setWidth_extractLsb'_eq_and, BitVec.ushiftRight_zero, and_self]

/-! ## The bus requests -/

theorem busReq_of_rdConv (hs : s.st = .rdConv) : s.busReq = none := by simp [State.busReq, hs]

theorem outLAddr_eq (c : Channel) : outLAddr c = if c = .temp then 0x2A else 0x28 := by cases c <;> rfl

theorem outHAddr_eq (c : Channel) : outHAddr c = if c = .temp then 0x2B else 0x29 := by cases c <;> rfl

/-- Settles O44, row by row; the raw output registers by the channel. -/
theorem busRequestTable : Obligations.BusRequestTable := by
  intro s
  refine ⟨fun hs => ?_, fun hs => ?_, fun hs => ?_, fun hs => ?_, fun hs => ?_, fun hs => ?_, fun hs => ?_, ?_⟩
  case refine_8 =>
    rintro (hs | hs | hu)
    · exact busReq_of_idle hs
    · exact busReq_of_rdConv hs
    · exact busReq_of_isUnused hu
  all_goals simp [State.busReq, hs, readReq, writeReq, outLAddr_eq, outHAddr_eq]

end Sys2Proof.Machine
end

section
/-! PROOFS. The command and response handshakes (R74, R75, R78 to R80): commands that wait, words that are refused, the
cause of each response, the session that keeps one response for each command, and the inputs a step reads. -/

namespace Sys2Proof.Machine

open Sys2Proof

variable {s : State}

/-! ## Sessions -/

theorem Session.presented_invariant {x : Session} (h : Invariant x.machine) : Invariant x.presented := { h with }

/-- Settles O56: the machine's part is a step, which keeps the invariant; the balance is `Session.step_balanced`. -/
theorem sessionStepKeepsBalance : Obligations.SessionStepKeepsBalance := by
  intro x hinv hb
  obtain ⟨t, ht, hmachine, -⟩ := x.step_spec
  refine ⟨?_, x.step_balanced hinv.stUsed hb⟩
  rw [hmachine]
  exact stepKeepsInvariant _ t (Session.presented_invariant hinv) ht

/-! ## Commands that wait -/

theorem beginStep_of_inReading (hs : s.st.inReading = true) : beginStep s = s := by
  rcases s.st.inReading_iff.mp hs with h | h | h | h <;> simp [beginStep, h]

theorem readStep_of_inBegin (hs : s.st.inBegin = true) (c : Channel) : readStep c s = s := by
  rcases s.st.inBegin_iff.mp hs with h | h | h | h <;> simp [readStep, h]

theorem readStep_of_ne_chan (hs : s.st.inReading = true) {c : Channel} (hc : c ≠ s.chan) : readStep c s = s := by
  rcases s.st.inReading_iff.mp hs with h | h | h | h <;> simp [readStep, h, hc.symm]

/-- Settles O31: the step of the waiting command is the state itself, by the command in progress. -/
theorem waitingCommandChangesNothing : Obligations.WaitingCommandChangesNothing := by
  intro s
  refine ⟨fun hs => ?_, fun hs c => ?_, fun hs c hc => ?_⟩
  · rw [exec_begin, beginStep_of_inReading hs]
  · rw [exec_readCommand, readStep_of_inBegin hs]
  · rw [exec_readCommand, readStep_of_ne_chan hs hc]

/-! ## Illegal command words -/

theorem fetch_illegal (hr : s.now.rst = false) (hs : s.st = .idle) (hv : s.now.cmdValid = true) {e : DecodeError}
    (hd : decodeCmd s.now.cmd = .error e) : s.fetch = .illegal := by
  simp [State.fetch, hr, hs, hv, hd]

/-- In IDLE an illegal word writes the response registers alone (R74, R203). -/
theorem illegalCommand_of_idle (hs : s.st = .idle) :
    s.illegalCommand = { s with rspValid := true, rspStatus := 2, rspData := 0 } := by
  simp [State.illegalCommand, State.accept, State.raiseError, State.respond, Status.code, Status.recordsFault, hs]

/-- Settles O34: the word decodes to no command, so the step is `illegalCommand` and the passing of time. -/
theorem illegalWordIsRefused : Obligations.IllegalWordIsRefused := by
  intro s hr hs hv h1 h2 h3
  rw [step_of_illegal (fetch_illegal hr hs hv (decodeCmd_illegal _ h1 h2 h3)), illegalCommand_of_idle hs]
  rfl

/-! ## The cause of each response -/

theorem readWord_eq_or (c : Channel) : readWord c = 0x02 ∨ readWord c = 0x03 := by cases c <;> simp [readWord]

/-- Settles O47, by the transition the step makes: of those that end in IDLE by a Sequencer step, each is the cause of one
code. -/
theorem statusHasItsCause : Obligations.StatusHasItsCause := by
  intro s code data h
  obtain ⟨t, ht⟩ := stepAlwaysAnswersNext s
  obtain ⟨ha, hidle, hregs⟩ := (delivered_eq_some_iff ht _).mp h
  obtain ⟨rfl, rfl⟩ := Prod.mk.inj hregs
  obtain ⟨u, hu, rfl⟩ := step_transition ht
  cases hu with
  | reset _ hf | noCommand _ _ _ hf => simp [State.advances, hf] at ha
  | unanswered _ _ _ hs => exact absurd hidle hs.1
  | calRead _ hs | pollUnbounded _ hs | pollCounted _ hs => simp [hs] at hidle
  | beginAccepted | readAccepted | identityRight | ctrlAck | avgAck | pollReady | outLow | outHigh => cases hidle
  | calLast _ hs _ hi => exact .inl ⟨rfl, .inl ⟨hs, hi, rfl⟩⟩
  | converted _ hs hz => exact .inl ⟨rfl, .inr ⟨hs, decide_eq_false hz⟩⟩
  | identityWrong _ hs _ hb => exact .inr (.inl ⟨rfl, rfl, .inl ⟨hs, hb⟩⟩)
  | ctrlNak _ hs _ hnak => exact .inr (.inl ⟨rfl, rfl, .inr ⟨.inl hs, hnak⟩⟩)
  | avgNak _ hs _ hnak => exact .inr (.inl ⟨rfl, rfl, .inr ⟨.inr hs, hnak⟩⟩)
  | beginRefused _ hs _ hw hi => exact .inr (.inr (.inl ⟨rfl, rfl, hs, .inl ⟨hw, hi⟩⟩))
  | readRefused c _ hs _ hw hi =>
    have hread : s.now.cmd = 0x02 ∨ s.now.cmd = 0x03 := by rw [hw]; exact readWord_eq_or c
    exact .inr (.inr (.inl ⟨rfl, rfl, hs, .inr (.inl ⟨hread, hi⟩)⟩))
  | illegalWord _ hs _ hw => exact .inr (.inr (.inl ⟨rfl, rfl, hs, .inr (.inr hw)⟩))
  | zeroDelta _ hs hz => exact .inr (.inr (.inr (.inl ⟨rfl, rfl, hs, decide_eq_true hz⟩)))
  | pollTimeout _ hs _ hd hl hn => exact .inr (.inr (.inr (.inr ⟨rfl, rfl, hs, hd, hl, hn⟩)))

/-! ## Rules that read no input commute with placing the inputs -/

section
variable (p : Pins)

theorem beginAccept_withPins : beginAccept (s.withPins p) = (beginAccept s).withPins p := by
  rw [beginAccept, beginAccept, State.withPins_initDone]
  split_ifs <;> rfl

theorem readAccept_withPins (c : Channel) : readAccept c (s.withPins p) = (readAccept c s).withPins p := by
  rw [readAccept, readAccept, State.withPins_initDone]
  split_ifs <;> rfl

theorem pollAgain_withPins : pollAgain (s.withPins p) = (pollAgain s).withPins p := by
  rw [pollAgain, pollAgain, State.withPins_params, State.withPins_pollCnt]
  split_ifs <;> rfl

theorem rdConvStep_withPins : rdConvStep (s.withPins p) = (rdConvStep s).withPins p := by
  have hout : (s.withPins p).ipOutputs = s.ipOutputs := rfl
  rw [rdConvStep, rdConvStep, hout, endReading, endReading, State.driveIp_ip, State.driveIp_ip]
  split_ifs <;> rfl

theorem beginStep_of_idle (hs : s.st = .idle) : beginStep s = beginAccept s := by simp [beginStep, hs]

theorem readStep_of_idle (hs : s.st = .idle) (c : Channel) : readStep c s = readAccept c s := by simp [readStep, hs]

theorem exec_withPins_of_idle (hs : s.st = .idle) (i : Instr) :
    exec i (s.withPins p) = mapNext (·.withPins p) (exec i s) := by
  have hsp : (s.withPins p).st = .idle := hs
  have hread (c : Channel) :
      exec (readCommand c) (s.withPins p) = mapNext (·.withPins p) (exec (readCommand c) s) := by
    rw [exec_readCommand, exec_readCommand, readStep_of_idle hs, readStep_of_idle hsp, readAccept_withPins, mapNext_next]
  cases i with
  | begin => rw [exec_begin, exec_begin, beginStep_of_idle hs, beginStep_of_idle hsp, beginAccept_withPins, mapNext_next]
  | readTemp => exact hread .temp
  | readHum => exact hread .hum
  | interpTemp | interpHum => rfl

end

/-! ## The inputs a step reads -/

/-- Two inputs agree on all that the step at `s` reads (R75, R81): reset, the command in IDLE, an answer in a bus state,
its data for a read and its acknowledge for a write. -/
structure AgreeOnRead (s : State) (p q : Pins) : Prop where
  rst : p.rst = q.rst
  command : s.st = .idle → p.cmdValid = q.cmdValid ∧ p.cmd = q.cmd
  answered : s.busReqValid = true → p.busRspValid = q.busRspValid
  data : ∀ r, s.busReq = some r → r.we = false → p.busRspRdata = q.busRspRdata
  ack : ∀ r, s.busReq = some r → r.we = true → p.busRspAck = q.busRspAck

section
variable {p q : Pins}

/-- Where a read is presented, rules that agree on every byte once time has passed agree on both inputs. -/
theorem AgreeOnRead.onRead_tick (h : AgreeOnRead s p q) {a : Byte} (hreq : s.busReq = some (readReq s.params a))
    {f g : Byte → State} (hfg : ∀ b, (f b).tick = (g b).tick) :
    ((s.withPins p).onRead f).tick = ((s.withPins q).onRead g).tick := by
  rw [State.onRead, State.onRead, State.withPins_now, State.withPins_now,
    h.answered (by rw [State.busReqValid, hreq]; rfl), h.data _ hreq rfl]
  split_ifs
  · exact hfg _
  · rfl

/-- Where a write is presented, rules that agree on either acknowledge once time has passed agree on both inputs. -/
theorem AgreeOnRead.onWrite_tick (h : AgreeOnRead s p q) {a v : Byte} (hreq : s.busReq = some (writeReq s.params a v))
    {f g : Bool → State} (hfg : ∀ ack, (f ack).tick = (g ack).tick) :
    ((s.withPins p).onWrite f).tick = ((s.withPins q).onWrite g).tick := by
  rw [State.onWrite, State.onWrite, State.withPins_now, State.withPins_now,
    h.answered (by rw [State.busReqValid, hreq]; rfl), h.ack _ hreq rfl]
  split_ifs
  · exact hfg _
  · rfl

theorem AgreeOnRead.beginStep_tick (h : AgreeOnRead s p q) (hs : s.st.inBegin = true) :
    (beginStep (s.withPins p)).tick = (beginStep (s.withPins q)).tick := by
  rcases s.st.inBegin_iff.mp hs with hst | hst | hst | hst <;> simp only [beginStep, State.withPins_st, hst]
  · refine h.onRead_tick (by rw [State.busReq, hst]) fun b => ?_
    split_ifs <;> rfl
  · refine h.onWrite_tick (by rw [State.busReq, hst]) fun ack => ?_
    split_ifs <;> rfl
  · refine h.onWrite_tick (by rw [State.busReq, hst]) fun ack => ?_
    split_ifs <;> rfl
  · refine h.onRead_tick (by rw [State.busReq, hst]) fun b => ?_
    by_cases hi : s.calIdx.val < 12 <;> simp only [State.withPins_calIdx, hi, ↓reduceDIte] <;> rfl

theorem AgreeOnRead.readStep_tick (h : AgreeOnRead s p q) (hs : s.st.inReading = true) :
    (readStep s.chan (s.withPins p)).tick = (readStep s.chan (s.withPins q)).tick := by
  rcases s.st.inReading_iff.mp hs with hst | hst | hst | hst <;>
    simp only [readStep, State.withPins_st, hst, State.withPins_chan, if_true]
  · rw [rdConvStep_withPins, rdConvStep_withPins]
    rfl
  · refine h.onRead_tick (by rw [State.busReq, hst]) fun b => ?_
    rw [pollAgain_withPins, pollAgain_withPins, State.withPins_chan, State.withPins_chan]
    split_ifs <;> rfl
  · exact h.onRead_tick (by rw [State.busReq, hst]) fun _ => rfl
  · exact h.onRead_tick (by rw [State.busReq, hst]) fun _ => rfl

theorem AgreeOnRead.fetch_eq (h : AgreeOnRead s p q) (hs : s.st = .idle) :
    (s.withPins p).fetch = (s.withPins q).fetch := by
  obtain ⟨hvalid, hcmd⟩ := h.command hs
  rw [State.fetch, State.fetch, State.withPins_now, State.withPins_now, h.rst, hvalid, hcmd]
  rfl

theorem AgreeOnRead.step_eq_of_idle (h : AgreeOnRead s p q) (hr : (s.withPins q).now.rst = false) (hs : s.st = .idle) :
    step (s.withPins p) = step (s.withPins q) := by
  have hfetch := h.fetch_eq hs
  cases hv : (s.withPins q).now.cmdValid with
  | false =>
    have hf := fetch_idle hr hs hv
    rw [step_of_hold (hfetch.trans hf), step_of_hold hf]
    rfl
  | true =>
    cases hd : decodeCmd (s.withPins q).now.cmd with
    | error e =>
      have hf := fetch_illegal hr hs hv hd
      rw [step_of_illegal (hfetch.trans hf), step_of_illegal hf]
      rfl
    | ok i =>
      have hf := fetch_accepted hr hs hv hd
      obtain ⟨t, ht⟩ := exec_answers_next i s
      rw [step_of_command (hfetch.trans hf), step_of_command hf, exec_withPins_of_idle p hs, exec_withPins_of_idle q hs,
        ht]
      rfl

theorem idle_or_inProgress (hu : s.st.isUnused = false) :
    s.st = .idle ∨ s.st.inBegin = true ∨ s.st.inReading = true := by
  cases hs : s.st <;> simp [hs, St.isUnused, St.inBegin, St.inReading] at hu ⊢

/-- Inputs that agree on what the step reads lead to one outcome: under reset, in IDLE, and in each command in progress. -/
theorem AgreeOnRead.step_eq (h : AgreeOnRead s p q) : step (s.withPins p) = step (s.withPins q) := by
  have hrst : (s.withPins p).now.rst = (s.withPins q).now.rst := h.rst
  by_cases hreset : (s.withPins q).fetch = .reset
  · have hreset' : (s.withPins p).fetch = .reset := by
      rw [fetch_eq_reset_iff] at hreset ⊢
      rwa [hrst]
    rw [step_of_reset hreset, step_of_reset hreset']
    rfl
  · rw [fetch_eq_reset_iff, not_or, Bool.not_eq_true, Bool.not_eq_true, State.withPins_st] at hreset
    obtain ⟨hr, hu⟩ := hreset
    rcases idle_or_inProgress hu with hs | hs | hs
    · exact h.step_eq_of_idle hr hs
    · rw [step_of_inBegin (hrst.trans hr) hs, step_of_inBegin hr hs, h.beginStep_tick hs]
    · rw [step_of_inReading (hrst.trans hr) hs, step_of_inReading hr hs]
      exact congrArg _ (h.readStep_tick hs)

end

/-- Settles O41: the hypotheses are `AgreeOnRead` of the state with the entries that follow. -/
theorem stepReadsOnlyItsInputs : Obligations.StepReadsOnlyItsInputs := by
  intro s p q rest hrst hcommand hanswered hdata hack
  have h : AgreeOnRead { s with env := rest } p q := ⟨hrst, hcommand, hanswered, hdata, hack⟩
  exact h.step_eq

end Sys2Proof.Machine
end

section
/-! PROOFS. BEGIN (R100 to R110): each of its step rules with the whole next state, what it leaves unchanged, and its runs
from acceptance to response, with the trace each shows. -/

namespace Sys2Proof.Machine

open Sys2Proof

variable {s t u : State}

/-! ## Responses as whole states -/

theorem respond_eq_responded (s : State) (c : Status) (d : Word) : s.respond c d = responded s c.code d := rfl

/-- An error that records no fault writes the response registers alone (R200). -/
theorem raiseError_eq_responded (s : State) {c : Status} (hc : c.recordsFault = false) :
    s.raiseError c = responded s c.code 0 := by
  simp [State.raiseError, respond_eq_responded, responded, hc]

theorem raiseError_initFail (s : State) : s.raiseError .initFail = responded s 1 0 := raiseError_eq_responded s rfl

/-! ## The step rules of BEGIN -/

theorem onRead_of_answered (hv : s.now.busRspValid = true) (take : Byte → State) :
    s.onRead take = take s.now.busRspRdata := by
  simp [State.onRead, hv]

theorem onWrite_of_answered (hv : s.now.busRspValid = true) (take : Bool → State) :
    s.onWrite take = take s.now.busRspAck := by
  simp [State.onWrite, hv]

theorem beginAccept_eq (s : State) :
    beginAccept s = if s.initDone then responded s 2 0 else { s with rspValid := false, st := .initId } := by
  have hrefused : s.accept.raiseError .illegalCmd = responded s 2 0 := raiseError_eq_responded s.accept rfl
  rw [beginAccept, hrefused]
  rfl

theorem beginStep_of_initId (hs : s.st = .initId) (hv : s.now.busRspValid = true) :
    beginStep s = if s.now.busRspRdata = 0xBC then { s with st := .initCtrl } else responded s 1 0 := by
  simp only [beginStep, hs, initIdStep, onRead_of_answered hv, raiseError_initFail, Config.whoAmI]

theorem beginStep_of_initCtrl (hs : s.st = .initCtrl) (hv : s.now.busRspValid = true) :
    beginStep s = if s.now.busRspAck then { s with st := .initAvg } else responded s 1 0 := by
  simp only [beginStep, hs, initCtrlStep, onWrite_of_answered hv, raiseError_initFail]

theorem beginStep_of_initAvg (hs : s.st = .initAvg) (hv : s.now.busRspValid = true) :
    beginStep s = if s.now.busRspAck then { s with calIdx := 0, st := .initCal } else responded s 1 0 := by
  simp only [beginStep, hs, initAvgStep, onWrite_of_answered hv, raiseError_initFail]

theorem beginStep_of_initCal_lt (hs : s.st = .initCal) (hv : s.now.busRspValid = true) (hi : s.calIdx.val < 12) :
    beginStep s = { s with cal := capture s.calIdx s.now.busRspRdata s.cal, calIdx := s.calIdx + 1 } := by
  have hsucc : (⟨s.calIdx.val + 1, by omega⟩ : Fin 13) = s.calIdx + 1 := by
    rw [Fin.ext_iff, Fin.val_add_one_of_lt hi]
  simp only [beginStep, hs, initCalStep, onRead_of_answered hv, hi, ↓reduceDIte, hsucc]

theorem beginStep_of_initCal_last (hs : s.st = .initCal) (hv : s.now.busRspValid = true) (hi : ¬ s.calIdx.val < 12) :
    beginStep s =
      responded { s with cal := capture s.calIdx s.now.busRspRdata s.cal, calIdx := 0, initDone := true } 0 0 := by
  simp only [beginStep, hs, initCalStep, onRead_of_answered hv, hi, ↓reduceDIte]
  rfl

/-- In a state of BEGIN the command's meaning and the machine's step are both `beginStep`. -/
theorem exec_and_step_of_inBegin (hs : s.st.inBegin = true) (h : beginStep s = t) :
    exec .begin s = .next t ∧ (s.now.rst = false → step s = .next t.tick) := by
  subst h
  exact ⟨exec_begin s, fun hr => step_of_inBegin hr hs⟩

/-- Settles O14, by the lifecycle; a word 0x01 accepted decodes to BEGIN. -/
theorem beginAcceptance : Obligations.BeginAcceptance := by
  intro s hs
  have hexec : exec .begin s = .next
      (if s.initDone then responded s 2 0 else { s with rspValid := false, st := .initId }) := by
    rw [exec_begin, beginStep_of_idle hs, beginAccept_eq]
  refine ⟨hexec, busReq_of_idle hs, fun hi => ?_, fun hr hv hw => ?_⟩
  · exact busReq_of_idle (by simp [hi])
  · rw [step_of_command (fetch_accepted hr hs hv (i := .begin) (by rw [hw]; rfl)), hexec]
    rfl

/-- Settles O15, by INIT_ID's rule. -/
theorem identityCheck : Obligations.IdentityCheck := by
  intro s hs
  refine ⟨by rw [State.busReq, hs]; rfl, fun hv => ?_⟩
  exact exec_and_step_of_inBegin (by rw [hs]; rfl) (beginStep_of_initId hs hv)

/-- Settles O16, by INIT_CTRL's rule. -/
theorem powerUpWrite : Obligations.PowerUpWrite := by
  intro s hs
  refine ⟨by rw [State.busReq, hs]; rfl, fun hv => ?_⟩
  exact exec_and_step_of_inBegin (by rw [hs]; rfl) (beginStep_of_initCtrl hs hv)

/-- Settles O17, by INIT_AVG's rule. -/
theorem averagingWrite : Obligations.AveragingWrite := by
  intro s hs
  refine ⟨by rw [State.busReq, hs]; rfl, fun hv => ?_⟩
  exact exec_and_step_of_inBegin (by rw [hs]; rfl) (beginStep_of_initAvg hs hv)

/-- Settles O18, by INIT_CAL's rules below the last read and at it. -/
theorem calibrationRead : Obligations.CalibrationRead := by
  intro s hs hv
  refine ⟨by rw [State.busReq, hs]; rfl, exec_and_step_of_inBegin (by rw [hs]; rfl) ?_⟩
  split_ifs with hi
  · exact beginStep_of_initCal_lt hs hv hi
  · have hlast : s.calIdx = 12 := Fin.eq_last_of_not_lt hi
    rw [beginStep_of_initCal_last hs hv hi, hlast]
    rfl

/-! ## What BEGIN leaves unchanged -/

/-- BEGIN's step changes something only where it accepts the command or takes an answer. -/
theorem beginStep_eq_self_or (s : State) :
    beginStep s = s ∨ s.st = .idle ∨ (s.st.inBegin = true ∧ s.now.busRspValid = true) := by
  by_cases hidle : s.st = .idle
  · exact .inr (.inl hidle)
  cases hv : s.now.busRspValid with
  | false => exact .inl (beginStep_of_unanswered hidle hv)
  | true => cases hs : s.st <;> simp [beginStep, hs, St.inBegin]

/-- Settles O23: where BEGIN's step changes anything, by the rule that makes the change. -/
theorem beginFrame : Obligations.BeginFrame := by
  intro s t h
  obtain rfl : beginStep s = t := by simpa [exec_begin] using h
  rcases beginStep_eq_self_or s with hself | hs | ⟨hs, hv⟩
  · simp [hself]
  · rw [beginStep_of_idle hs, beginAccept_eq]
    split_ifs <;> simp [responded]
  · rcases s.st.inBegin_iff.mp hs with hst | hst | hst | hst
    · rw [beginStep_of_initId hst hv]
      split_ifs <;> simp [responded]
    · rw [beginStep_of_initCtrl hst hv]
      split_ifs <;> simp [responded]
    · rw [beginStep_of_initAvg hst hv]
      split_ifs <;> simp [responded, hst]
    · by_cases hi : s.calIdx.val < 12
      · simp [beginStep_of_initCal_lt hst hv hi, hst, hv]
      · have hlast : s.calIdx = 12 := Fin.eq_last_of_not_lt hi
        simp [beginStep_of_initCal_last hst hv hi, responded, hst, hv, hlast]

/-! ## Runs with their traces -/

/-- `n` steps from `s` end in `t` and show the trace `tr` (R12). -/
structure Shows (n : Nat) (s t : State) (tr : Trace) : Prop where
  run : run n s = .next t
  trace : trace n s = tr

section
variable {n : Nat} {tr : Trace} {q : BusReq} {p : Pins} {l : List Pins}

theorem Shows.zero (s : State) : Shows 0 s s { requests := [], responses := [] } := ⟨rfl, rfl⟩

/-- A Sequencer step into a bus state shows the request issued there (R12, R81). -/
theorem Shows.request (h : step s = .next t) (ha : s.advances = true) (hq : t.busReq = some q)
    (hrest : Shows n t u tr) : Shows (n + 1) s u { tr with requests := q :: tr.requests } := by
  have hidle : t.st ≠ .idle := fun hs => by simp [busReq_of_idle hs] at hq
  refine ⟨(run_succ_of_next h n).trans hrest.run, ?_⟩
  simp [trace_succ_of_next h, issued_of_next h, delivered_of_next h, ha, hq, hidle, hrest.trace]

/-- A Sequencer step into IDLE shows the response delivered there (R12, R78). -/
theorem Shows.response (h : step s = .next t) (ha : s.advances = true) (hs : t.st = .idle) :
    Shows 1 s t { requests := [], responses := [(t.rspStatus, t.rspData)] } := by
  have hrest := Shows.zero t
  refine ⟨(run_succ_of_next h 0).trans hrest.run, ?_⟩
  rw [trace_succ_of_next h, hrest.trace]
  simp [issued_of_next h, delivered_of_next h, ha, hs, busReq_of_idle hs]

/-! ## BEGIN's part of a run -/

/-- Where inputs are listed, time passing drops the first of them. -/
theorem tick_eq_of_env (henv : t.env = p :: l) : t.tick = { t with env := l, clock := t.clock + 1 } := by
  rw [State.tick, henv, List.tail_cons]

/-- The step at which a state of BEGIN takes a listed answer is a Sequencer step, and makes `beginStep` (R10). -/
theorem step_and_advances_of_inBegin (hs : s.st.inBegin = true) (henv : s.env = p :: l) (hr : p.rst = false)
    (hv : p.busRspValid = true) (ht : beginStep s = t) (henv' : t.env = s.env) :
    step s = .next { t with env := l, clock := t.clock + 1 } ∧ s.advances = true := by
  have hnow : s.now = p := s.now_cons _ _ henv
  rw [← hnow] at hr hv
  refine ⟨?_, ?_⟩
  · rw [step_of_inBegin hr hs, ht, tick_eq_of_env (henv'.trans henv)]
  · rw [advances_of_busReqValid hr ((busReqValid_iff s).mpr (.inl hs)), hv]

/-- Acceptance of BEGIN issues the identity read (R101, R102). -/
theorem Shows.of_beginAccepted (hs : s.st = .idle) (hi : s.initDone = false) (henv : s.env = commandPins 0x01 :: l)
    (hrest : Shows n { s with rspValid := false, st := .initId, env := l, clock := s.clock + 1 } u tr) :
    Shows (n + 1) s u { tr with requests := readReq s.params 0x0F :: tr.requests } := by
  have hnow : s.now = commandPins 0x01 := s.now_cons _ _ henv
  have hr : s.now.rst = false := by rw [hnow]; rfl
  have hv : s.now.cmdValid = true := by rw [hnow]; rfl
  have hstep := step_of_beginAccepted hr hs hv (by rw [hnow]; rfl) hi
  exact .request (hstep.trans (congrArg _ (tick_eq_of_env henv))) (by rw [advances_of_idle hr hs, hv]) rfl hrest

/-- An answer that leads BEGIN to a bus state shows the next request. -/
theorem Shows.of_beginGoesOn (hs : s.st.inBegin = true) (henv : s.env = p :: l) (hr : p.rst = false)
    (hv : p.busRspValid = true) (ht : beginStep s = t) (henv' : t.env = s.env) (hq : t.busReq = some q)
    (hrest : Shows n { t with env := l, clock := t.clock + 1 } u tr) :
    Shows (n + 1) s u { tr with requests := q :: tr.requests } := by
  obtain ⟨hstep, ha⟩ := step_and_advances_of_inBegin hs henv hr hv ht henv'
  exact .request hstep ha hq hrest

/-- An answer that leads BEGIN to IDLE shows its response. -/
theorem Shows.of_beginResponds (hs : s.st.inBegin = true) (henv : s.env = p :: l) (hr : p.rst = false)
    (hv : p.busRspValid = true) (ht : beginStep s = t) (henv' : t.env = s.env) (hidle : t.st = .idle) :
    Shows 1 s { t with env := l, clock := t.clock + 1 }
      { requests := [], responses := [(t.rspStatus, t.rspData)] } := by
  obtain ⟨hstep, ha⟩ := step_and_advances_of_inBegin hs henv hr hv ht henv'
  exact .response hstep ha hidle

/-- The right identity goes on to the first write (R102, R103). -/
theorem Shows.of_identityRight (hs : s.st = .initId) (henv : s.env = answerReadPins 0xBC :: l)
    (hrest : Shows n { s with st := .initCtrl, env := l, clock := s.clock + 1 } u tr) :
    Shows (n + 1) s u
      { tr with requests := writeReq s.params 0x20 s.params.ctrlReg1Val :: tr.requests } := by
  have hnow := s.now_cons _ _ henv
  refine .of_beginGoesOn (by rw [hs]; rfl) henv rfl rfl (t := { s with st := .initCtrl }) ?_ rfl rfl hrest
  rw [beginStep_of_initId hs (by rw [hnow]; rfl), hnow]
  rfl

/-- The first write acknowledged goes on to the second (R103, R104). -/
theorem Shows.of_ctrlAck (hs : s.st = .initCtrl) (henv : s.env = answerWritePins true :: l)
    (hrest : Shows n { s with st := .initAvg, env := l, clock := s.clock + 1 } u tr) :
    Shows (n + 1) s u { tr with requests := writeReq s.params 0x10 s.params.avConfVal :: tr.requests } := by
  have hnow := s.now_cons _ _ henv
  refine .of_beginGoesOn (by rw [hs]; rfl) henv rfl rfl (t := { s with st := .initAvg }) ?_ rfl rfl hrest
  rw [beginStep_of_initCtrl hs (by rw [hnow]; rfl), hnow]
  rfl

/-- The second write acknowledged goes on to the first calibration read (R104, R105). -/
theorem Shows.of_avgAck (hs : s.st = .initAvg) (henv : s.env = answerWritePins true :: l)
    (hrest : Shows n { s with calIdx := 0, st := .initCal, env := l, clock := s.clock + 1 } u tr) :
    Shows (n + 1) s u { tr with requests := readReq s.params (calAddr 0) :: tr.requests } := by
  have hnow := s.now_cons _ _ henv
  refine .of_beginGoesOn (by rw [hs]; rfl) henv rfl rfl (t := { s with calIdx := 0, st := .initCal }) ?_ rfl rfl hrest
  rw [beginStep_of_initAvg hs (by rw [hnow]; rfl), hnow]
  rfl

/-- An answer that BEGIN fails on ends it with INIT_FAIL (R107). -/
theorem Shows.of_beginFails (hs : s.st.inBegin = true) (henv : s.env = p :: l) (hr : p.rst = false)
    (hv : p.busRspValid = true) (h : beginStep s = responded s 1 0) :
    Shows 1 s { responded s 1 0 with env := l, clock := s.clock + 1 }
      { requests := [], responses := [(1, 0)] } :=
  .of_beginResponds hs henv hr hv h rfl rfl

theorem Shows.of_identityWrong {b : Byte} (hs : s.st = .initId) (henv : s.env = answerReadPins b :: l)
    (hb : b ≠ 0xBC) :
    Shows 1 s { responded s 1 0 with env := l, clock := s.clock + 1 }
      { requests := [], responses := [(1, 0)] } := by
  have hnow := s.now_cons _ _ henv
  refine .of_beginFails (by rw [hs]; rfl) henv rfl rfl ?_
  rw [beginStep_of_initId hs (by rw [hnow]; rfl), hnow]
  exact if_neg hb

theorem Shows.of_ctrlNak (hs : s.st = .initCtrl) (henv : s.env = answerWritePins false :: l) :
    Shows 1 s { responded s 1 0 with env := l, clock := s.clock + 1 }
      { requests := [], responses := [(1, 0)] } := by
  have hnow := s.now_cons _ _ henv
  refine .of_beginFails (by rw [hs]; rfl) henv rfl rfl ?_
  rw [beginStep_of_initCtrl hs (by rw [hnow]; rfl), hnow]
  rfl

theorem Shows.of_avgNak (hs : s.st = .initAvg) (henv : s.env = answerWritePins false :: l) :
    Shows 1 s { responded s 1 0 with env := l, clock := s.clock + 1 }
      { requests := [], responses := [(1, 0)] } := by
  have hnow := s.now_cons _ _ henv
  refine .of_beginFails (by rw [hs]; rfl) henv rfl rfl ?_
  rw [beginStep_of_initAvg hs (by rw [hnow]; rfl), hnow]
  rfl

/-- A calibration read but the last goes on to the next (R105). -/
theorem Shows.of_calibrationRead {byte : Byte} (hs : s.st = .initCal) (hi : s.calIdx.val < 12)
    (henv : s.env = answerReadPins byte :: l)
    (hrest : Shows n { s with
      cal := capture s.calIdx byte s.cal, calIdx := s.calIdx + 1, env := l, clock := s.clock + 1 } u tr) :
    Shows (n + 1) s u { tr with requests := readReq s.params (calAddr (s.calIdx + 1)) :: tr.requests } := by
  have hnow := s.now_cons _ _ henv
  refine .of_beginGoesOn (by rw [hs]; rfl) henv rfl rfl
    (t := { s with cal := capture s.calIdx byte s.cal, calIdx := s.calIdx + 1 }) ?_ rfl
    (by rw [State.busReq, hs]) hrest
  rw [beginStep_of_initCal_lt hs (by rw [hnow]; rfl) hi, hnow]
  rfl

/-- The last calibration read ends BEGIN with OK (R106). -/
theorem Shows.of_lastCalibrationRead {byte : Byte} (hs : s.st = .initCal) (hi : ¬ s.calIdx.val < 12)
    (henv : s.env = answerReadPins byte :: l) :
    Shows 1 s
      { responded s 0 0 with
        initDone := true, calIdx := 0, cal := capture s.calIdx byte s.cal, env := l, clock := s.clock + 1 }
      { requests := [], responses := [(0, 0)] } := by
  have hnow := s.now_cons _ _ henv
  refine .of_beginResponds (by rw [hs]; rfl) henv rfl rfl
    (t := responded { s with cal := capture s.calIdx byte s.cal, calIdx := 0, initDone := true } 0 0) ?_ rfl rfl
  rw [beginStep_of_initCal_last hs (by rw [hnow]; rfl) hi, hnow]
  rfl

theorem drop_finRange {m : Nat} (i : Fin m) :
    (List.finRange m).drop i.val = i :: (List.finRange m).drop (i.val + 1) := by
  rw [List.drop_eq_getElem_cons (by simp), List.getElem_finRange]
  rfl

/-- The calibration reads from `cal_idx` on (R105, R106): the bytes are captured in order, each answer but the last
issues the next read, and the last responds OK. By induction on the reads left, the indices from `cal_idx` on. -/
theorem Shows.of_calibrationReads {b : Fin 13 → Byte} {rest : List Pins} {reads : List (Fin 13)} (hs : s.st = .initCal)
    (hreads : (List.finRange 13).drop s.calIdx.val = reads)
    (henv : s.env = reads.map (fun i => answerReadPins (b i)) ++ rest) :
    Shows reads.length s
      { responded s 0 0 with
        initDone := true, calIdx := 0, cal := reads.foldl (fun c i => capture i (b i) c) s.cal
        env := rest, clock := s.clock + reads.length }
      { requests := reads.tail.map fun i => readReq s.params (calAddr i), responses := [(0, 0)] } := by
  induction reads generalizing s with
  | nil =>
    rw [List.drop_eq_nil_iff, List.length_finRange] at hreads
    omega
  | cons i reads ih =>
    rw [drop_finRange, List.cons.injEq] at hreads
    obtain ⟨rfl, hnext⟩ := hreads
    by_cases hi : s.calIdx.val < 12
    · have hsucc : (s.calIdx + 1).val = s.calIdx.val + 1 := Fin.val_add_one_of_lt hi
      rw [← hsucc] at hnext
      obtain ⟨later, rfl⟩ : ∃ later, reads = (s.calIdx + 1) :: later := ⟨_, hnext.symm.trans (drop_finRange _)⟩
      have hclock (k : Nat) : s.clock + (k + 1) = s.clock + 1 + k := by omega
      rw [List.length_cons, hclock]
      exact .of_calibrationRead hs hi henv (ih hs hnext rfl)
    · obtain rfl : reads = [] := by rw [← hnext, List.drop_eq_nil_iff, List.length_finRange]; omega
      exact .of_lastCalibrationRead hs hi henv

/-- All thirteen calibration reads, the first already presented. -/
theorem Shows.of_allCalibrationReads {b : Fin 13 → Byte} {rest : List Pins} (hs : s.st = .initCal)
    (hi : s.calIdx = 0) (henv : s.env = (List.finRange 13).map (fun i => answerReadPins (b i)) ++ rest) :
    Shows 13 s
      { responded s 0 0 with
        initDone := true, calIdx := 0, cal := calFromBytes b, env := rest, clock := s.clock + 13 }
      { requests := calAddrs.tail.map (readReq s.params), responses := [(0, 0)] } := by
  rw [← ingestionAssemblesCalibration s.cal b]
  exact .of_calibrationReads hs (by rw [hi]; rfl) henv

end

/-- Settles O21: acceptance, the three answers before the calibration reads, and the thirteen reads. -/
theorem beginSucceedsInSeventeenSteps : Obligations.BeginSucceedsInSeventeenSteps := by
  intro s b rest hs hi henv
  have h := Shows.of_beginAccepted hs hi henv <| .of_identityRight rfl rfl <| .of_ctrlAck rfl rfl <|
    .of_avgAck rfl rfl <| .of_allCalibrationReads rfl rfl rfl
  exact ⟨h.run, h.trace⟩

/-- Settles O22: the answers before the failing one go on, and the failing one ends the run. -/
theorem beginFailureChangesOnlyTheResponse : Obligations.BeginFailureChangesOnlyTheResponse := by
  intro s b rest hs hi
  refine ⟨fun henv hb => ?_, fun henv => ?_, fun henv => ?_⟩
  · have h := Shows.of_beginAccepted hs hi henv <| .of_identityWrong rfl rfl hb
    exact ⟨h.run, h.trace⟩
  · have h := Shows.of_beginAccepted hs hi henv <| .of_identityRight rfl rfl <| .of_ctrlNak rfl rfl
    exact ⟨h.run, h.trace⟩
  · have h := Shows.of_beginAccepted hs hi henv <| .of_identityRight rfl rfl <| .of_ctrlAck rfl rfl <|
      .of_avgNak rfl rfl
    exact ⟨h.run, h.trace⟩

end Sys2Proof.Machine
end

section
/-! PROOFS. Readings (R130 to R142): each of their step rules with the whole next state, what they leave unchanged, and
their runs from acceptance to response, with the trace each shows. -/

namespace Sys2Proof.Machine

open Sys2Proof

variable {s t u : State} {c : Channel}

/-! ## Words and bytes of a reading -/

/-- A raw output in shifts (R57). -/
theorem assembleHalf_eq_or (hi lo : Byte) : assembleHalf hi lo = (hi.setWidth 16 <<< 8) ||| lo.setWidth 16 := by
  rw [assembleHalf, ← BitVec.setWidth_append_eq_shiftLeft_setWidth_or, BitVec.setWidth_eq]

theorem decodeCmd_readWord (c : Channel) : decodeCmd (readWord c) = .ok (readCommand c) := by cases c <;> rfl

/-! ## The step rules of a reading -/

theorem readAccept_eq (c : Channel) (s : State) :
    readAccept c s =
      if s.initDone then { s with rspValid := false, chan := c, pollCnt := 0, st := .rdPoll } else responded s 2 0 := by
  have hrefused : s.accept.raiseError .illegalCmd = responded s 2 0 := raiseError_eq_responded s.accept rfl
  rw [readAccept, hrefused]
  rfl

theorem pollAgain_eq (s : State) :
    pollAgain s =
      if s.params.pollLimit = 0 then s
      else if s.pollCnt.toNat + 1 = s.params.pollLimit.toNat then responded s 4 0
      else { s with pollCnt := s.pollCnt + 1 } := by
  rw [pollAgain, raiseError_eq_responded s (c := .timeout) rfl]
  rfl

theorem readStep_of_rdPoll (hc : s.chan = c) (hs : s.st = .rdPoll) (hv : s.now.busRspValid = true) :
    readStep c s = if dataReady c s.now.busRspRdata then { s with st := .rdOutL } else pollAgain s := by
  simp only [readStep, hs, hc, ↓reduceIte, rdPollStep, onRead_of_answered hv]

theorem readStep_of_rdOutL (hc : s.chan = c) (hs : s.st = .rdOutL) (hv : s.now.busRspValid = true) :
    readStep c s = { s with rawLo := s.now.busRspRdata, st := .rdOutH } := by
  simp only [readStep, hs, hc, ↓reduceIte, rdOutLStep, onRead_of_answered hv]

theorem readStep_of_rdOutH (hc : s.chan = c) (hs : s.st = .rdOutH) (hv : s.now.busRspValid = true) :
    readStep c s = { s with raw := assembleHalf s.now.busRspRdata s.rawLo, st := .rdConv } := by
  simp only [readStep, hs, hc, ↓reduceIte, rdOutHStep, onRead_of_answered hv]

theorem ipOutputs_dz (s : State) : s.ipOutputs.dz = decide (s.cal.x1 s.chan = s.cal.x0 s.chan) := interp_dz ..

theorem ipOutputs_of_zeroDelta (hz : s.cal.x1 s.chan = s.cal.x0 s.chan) :
    s.ipOutputs = { result := 0, dz := true } := by
  rw [State.ipOutputs, hz, interp_same_points]

/-- The conversion responds with the result, or with DIV_ZERO and `fault` set on a zero delta (R137 to R139). -/
theorem readStep_of_rdConv (hc : s.chan = c) (hs : s.st = .rdConv) :
    readStep c s =
      if s.cal.x1 c = s.cal.x0 c then { responded s 3 0 with fault := true, ip := { result := 0, dz := true } }
      else { responded s 0 s.ipOutputs.result with ip := s.ipOutputs } := by
  subst hc
  simp only [readStep, hs, ↓reduceIte, rdConvStep, endReading, State.driveIp_ip, ipOutputs_dz, decide_eq_true_eq]
  split_ifs with hz
  · rw [ipOutputs_of_zeroDelta hz, State.raiseError, respond_eq_responded, Status.recordsFault, Bool.or_true]
    rfl
  · rfl

/-- The response of a conversion is R139's, and the zero delta is what it records in `fault`. -/
theorem readStep_of_rdConv_eq_readingResponse (hs : s.st = .rdConv) :
    readStep s.chan s =
      { responded s (readingResponse s.cal s.chan s.raw).1 (readingResponse s.cal s.chan s.raw).2 with
        ip := s.ipOutputs, fault := s.fault || decide (s.cal.x1 s.chan = s.cal.x0 s.chan) } := by
  rw [readStep_of_rdConv rfl hs, readingResponse]
  split_ifs with hz
  · simp [hz, ipOutputs_of_zeroDelta hz]
  · simp [hz, State.ipOutputs, responded]

/-- In a state of a reading the command's meaning and the machine's step are both `readStep`. -/
theorem exec_and_step_of_inReading (hc : s.chan = c) (hs : s.st.inReading = true) (h : readStep c s = t) :
    exec (readCommand c) s = .next t ∧ (s.now.rst = false → step s = .next t.tick) := by
  subst hc h
  exact ⟨exec_readCommand s.chan s, fun hr => step_of_inReading hr hs⟩

/-- In IDLE the step at which a reading's word is presented accepts the reading. -/
theorem step_of_readPresented (hr : s.now.rst = false) (hs : s.st = .idle) (hv : s.now.cmdValid = true)
    (hw : s.now.cmd = readWord c) : step s = .next (readAccept c s).tick := by
  rw [step_of_command (fetch_accepted hr hs hv (i := readCommand c) (by rw [hw, decodeCmd_readWord])),
    exec_readCommand, readStep_of_idle hs, mapNext_next]

/-- Settles O24, by the lifecycle; both words decode to readings. -/
theorem readingAcceptance : Obligations.ReadingAcceptance := by
  intro s hs
  have hexec (c : Channel) : exec (readCommand c) s = .next
      (if s.initDone then { s with rspValid := false, chan := c, pollCnt := 0, st := .rdPoll }
        else responded s 2 0) := by
    rw [exec_readCommand, readStep_of_idle hs, readAccept_eq]
  refine ⟨hexec .temp, hexec .hum, busReq_of_idle hs, fun hi => ?_, fun hr hv => ⟨fun hw => ?_, fun hw => ?_⟩⟩
  · exact ⟨busReq_of_idle (by simp [hi]), busReq_of_idle (by simp [hi])⟩
  · rw [step_of_readPresented (c := .temp) hr hs hv hw, readAccept_eq]
    rfl
  · rw [step_of_readPresented (c := .hum) hr hs hv hw, readAccept_eq]
    rfl

/-- Settles O25, by RD_POLL's rule; the channel's data-ready bit is bit 0 or bit 1. -/
theorem dataReadyPoll : Obligations.DataReadyPoll := by
  intro s c hs hc hv
  have hpoll := exec_and_step_of_inReading hc (by rw [hs]; rfl) (readStep_of_rdPoll hc hs hv)
  rw [pollAgain_eq] at hpoll
  refine ⟨by rw [State.busReq, hs]; rfl, ?_⟩
  cases c with
  | temp => exact hpoll
  | hum => exact hpoll

/-- Settles O26, by the rules of RD_OUT_L and RD_OUT_H. -/
theorem rawOutputBytes : Obligations.RawOutputBytes := by
  intro s c hc hv
  refine ⟨fun hs => ⟨?_, exec_and_step_of_inReading hc (by rw [hs]; rfl) (readStep_of_rdOutL hc hs hv)⟩,
    fun hs => ⟨?_, exec_and_step_of_inReading hc (by rw [hs]; rfl) ?_⟩⟩
  · rw [State.busReq, hs, hc]
    cases c <;> rfl
  · rw [State.busReq, hs, hc]
    cases c <;> rfl
  · rw [readStep_of_rdOutH hc hs hv, assembleHalf_eq_or]

/-- Settles O27, by RD_CONV's rule on each channel; a temperature code's low ten bits are its truncation. -/
theorem conversionEndsReading : Obligations.ConversionEndsReading := by
  intro s hs
  have hread : s.st.inReading = true := by rw [hs]; rfl
  refine ⟨busReq_of_rdConv hs, fun hc => exec_and_step_of_inReading hc hread ?_,
    fun hc => exec_and_step_of_inReading hc hread ?_⟩
  · have hout : s.ipOutputs = interp .temp s.raw s.cal.T0_OUT s.cal.T1_OUT
        (s.cal.T0_degC_x8.setWidth 10) (s.cal.T1_degC_x8.setWidth 10) := by
      rw [State.ipOutputs, hc]
      rfl
    rw [readStep_of_rdConv hc hs, hout]
    rfl
  · have hout : s.ipOutputs = interp .hum s.raw s.cal.H0_T0_OUT s.cal.H1_T0_OUT
        (s.cal.H0_rH_x2.setWidth 10) (s.cal.H1_rH_x2.setWidth 10) := by
      rw [State.ipOutputs, hc]
      rfl
    rw [readStep_of_rdConv hc hs, hout]
    rfl

/-! ## What a reading leaves unchanged -/

/-- A reading's step changes something only where it accepts the command, converts, or takes an answer. -/
theorem readStep_eq_self_or (c : Channel) (s : State) :
    readStep c s = s ∨ s.st = .idle ∨
      (s.chan = c ∧ s.st.inReading = true ∧ (s.st = .rdConv ∨ s.now.busRspValid = true)) := by
  by_cases hidle : s.st = .idle
  · exact .inr (.inl hidle)
  cases hread : s.st.inReading with
  | false => left; cases hs : s.st <;> simp [readStep, hs, St.inReading] at hidle hread ⊢
  | true =>
    by_cases hc : s.chan = c
    · by_cases hconv : s.st = .rdConv
      · exact .inr (.inr ⟨hc, rfl, .inl hconv⟩)
      cases hv : s.now.busRspValid with
      | false => exact .inl (readStep_of_unanswered c hidle hconv hv)
      | true => exact .inr (.inr ⟨hc, rfl, .inr rfl⟩)
    · exact .inl (readStep_of_ne_chan hread (Ne.symm hc))

/-- Settles O30: where a reading's step changes anything, by the rule that makes the change. -/
theorem readingFrame : Obligations.ReadingFrame := by
  intro c s t h
  obtain rfl : readStep c s = t := by simpa [exec_readCommand] using h
  rcases readStep_eq_self_or c s with hself | hs | ⟨hc, hread, hv⟩
  · simp [hself]
  · rw [readStep_of_idle hs, readAccept_eq]
    split_ifs <;> simp [responded, hs]
  rcases s.st.inReading_iff.mp hread with hs | hs | hs | hs
  · rw [readStep_of_rdConv hc hs]
    split_ifs <;> simp [responded, hs]
  all_goals have hv : s.now.busRspValid = true := hv.resolve_left (by simp [hs])
  · rw [readStep_of_rdPoll hc hs hv, pollAgain_eq]
    split_ifs <;> simp [responded, hs]
  · rw [readStep_of_rdOutL hc hs hv]
    simp [hs]
  · rw [readStep_of_rdOutH hc hs hv]
    simp [hs]

/-! ## Conversions of a channel with a zero delta -/

/-- Settles O54: the run keeps the CalibrationSet, and a response delivered in RD_CONV on a zero delta is DIV_ZERO's, by
its cause. -/
theorem zeroDeltaFailsEveryConversion : Obligations.ZeroDeltaFailsEveryConversion := by
  rintro n s t c ⟨code, data⟩ hinv hi hz hr h hs rfl hdel
  obtain ⟨hcal, -⟩ := calibrationIsImmutable n s t hinv hi hr h
  rw [← hcal] at hz
  have hcause := statusHasItsCause t code data hdel
  simp only [hs, hz, reduceCtorEq, false_and, and_false, or_false, false_or] at hcause
  obtain ⟨rfl, rfl, -⟩ := hcause
  rfl

/-! ## The polls of a reading -/

/-- The state after `k` polls that found the data-ready bit clear and did not reach the limit: `poll_cnt` counts them
where there is a limit (R136). -/
def State.polled (s : State) (k : Nat) : State :=
  { s with pollCnt := if s.params.pollLimit = 0 then s.pollCnt else s.pollCnt + BitVec.ofNat 32 k }

/-- `k` more clear polls do not reach the limit: there is none, or it is further on (R136). -/
def State.canPoll (s : State) (k : Nat) : Prop :=
  s.params.pollLimit = 0 ∨ s.pollCnt.toNat + k < s.params.pollLimit.toNat

theorem State.polled_zero (s : State) : s.polled 0 = s := by simp [State.polled]

theorem State.polled_polled (s : State) (j k : Nat) : (s.polled j).polled k = s.polled (j + k) := by
  simp only [State.polled, BitVec.ofNat_add]
  split_ifs <;> simp [BitVec.add_assoc]

theorem State.canPoll_polled {k : Nat} (h : s.canPoll (k + 1)) : (s.polled 1).canPoll k := by
  by_cases hl : s.params.pollLimit = 0
  · exact .inl hl
  · have hn : s.pollCnt.toNat + (k + 1) < s.params.pollLimit.toNat := h.resolve_left hl
    have hlt : s.params.pollLimit.toNat < 2 ^ 32 := s.params.pollLimit.isLt
    right
    simp only [State.polled, hl, if_false, BitVec.toNat_add, BitVec.toNat_ofNat]
    omega

/-- A clear poll below the limit is counted where there is one (R136). -/
theorem pollAgain_of_canPoll (h : s.canPoll 1) : pollAgain s = s.polled 1 := by
  rw [pollAgain_eq, State.polled]
  rcases h with hl | hn
  · simp [hl]
  · have hl : s.params.pollLimit ≠ 0 := by rintro hl; simp [hl] at hn
    rw [if_neg hl, if_neg hn.ne, if_neg hl]
    rfl

/-! ## A reading's part of a run -/

section
variable {n : Nat} {tr : Trace} {p : Pins} {l : List Pins}

/-- A Sequencer step into RD_CONV, the one state of a command in progress that presents no request, shows nothing. -/
theorem Shows.intoConversion (h : step s = .next t) (ha : s.advances = true) (hs : t.st = .rdConv)
    (hrest : Shows n t u tr) : Shows (n + 1) s u tr := by
  refine ⟨(run_succ_of_next h n).trans hrest.run, ?_⟩
  simp [trace_succ_of_next h, issued_of_next h, delivered_of_next h, ha, hs, busReq_of_rdConv hs, hrest.trace]

/-- Acceptance of a reading issues the first status read (R132, R133). -/
theorem Shows.of_readAccepted (hs : s.st = .idle) (hi : s.initDone = true)
    (henv : s.env = commandPins (readWord c) :: l)
    (hrest : Shows n { s with
      rspValid := false, chan := c, pollCnt := 0, st := .rdPoll, env := l, clock := s.clock + 1 } u tr) :
    Shows (n + 1) s u { tr with requests := readReq s.params 0x27 :: tr.requests } := by
  have hnow : s.now = commandPins (readWord c) := s.now_cons _ _ henv
  have hr : s.now.rst = false := by rw [hnow]; rfl
  have hv : s.now.cmdValid = true := by rw [hnow]; rfl
  have hstep := step_of_readPresented hr hs hv (by rw [hnow]; rfl)
  rw [readAccept_eq, if_pos hi] at hstep
  exact .request (hstep.trans (congrArg _ (tick_eq_of_env henv))) (by rw [advances_of_idle hr hs, hv]) rfl hrest

/-- The step at which a bus state of a reading takes a listed answer is a Sequencer step, and makes `readStep` (R10). -/
theorem step_and_advances_of_readAnswered {b : Byte} (hs : s.st = .rdPoll ∨ s.st = .rdOutL ∨ s.st = .rdOutH)
    (henv : s.env = answerReadPins b :: l) (ht : readStep s.chan s = t) (henv' : t.env = s.env) :
    step s = .next { t with env := l, clock := t.clock + 1 } ∧ s.advances = true := by
  have hnow : s.now = answerReadPins b := s.now_cons _ _ henv
  have hr : s.now.rst = false := by rw [hnow]; rfl
  have hread : s.st.inReading = true := s.st.inReading_iff.mpr (.inr hs)
  have hconv : s.st ≠ .rdConv := by rcases hs with hs | hs | hs <;> simp [hs]
  refine ⟨?_, ?_⟩
  · rw [step_of_inReading hr hread, ht, tick_eq_of_env (henv'.trans henv)]
  · rw [advances_of_busReqValid hr ((busReqValid_iff s).mpr (.inr ⟨hread, hconv⟩)), hnow]
    rfl

/-- A clear poll below the limit issues the next status read (R136). -/
theorem Shows.of_clearPoll {b : Byte} (hs : s.st = .rdPoll) (hb : dataReady s.chan b = false) (hl : s.canPoll 1)
    (henv : s.env = answerReadPins b :: l)
    (hrest : Shows n { s.polled 1 with env := l, clock := s.clock + 1 } u tr) :
    Shows (n + 1) s u { tr with requests := readReq s.params 0x27 :: tr.requests } := by
  have hnow := s.now_cons _ _ henv
  have hread : readStep s.chan s = s.polled 1 := by
    rw [readStep_of_rdPoll rfl hs (by rw [hnow]; rfl), hnow, pollAgain_of_canPoll hl]
    exact if_neg (by simpa [answerReadPins] using hb)
  obtain ⟨hstep, ha⟩ := step_and_advances_of_readAnswered (.inl hs) henv hread rfl
  exact .request hstep ha (by rw [State.busReq, State.polled, hs]) hrest

/-- Clear polls that do not reach the limit: each issues the next status read. By induction on the status bytes. -/
theorem Shows.of_clearPolls {clear : List Byte} (hs : s.st = .rdPoll) (hb : ∀ b ∈ clear, dataReady s.chan b = false)
    (hl : s.canPoll clear.length) (henv : s.env = clear.map answerReadPins ++ l)
    (hrest : Shows n { s.polled clear.length with env := l, clock := s.clock + clear.length } u tr) :
    Shows (clear.length + n) s u
      { tr with requests := List.replicate clear.length (readReq s.params 0x27) ++ tr.requests } := by
  induction clear generalizing s with
  | nil =>
    obtain rfl : s.env = l := henv
    rw [List.length_nil, Nat.zero_add]
    rwa [List.length_nil, State.polled_zero] at hrest
  | cons b clear ih =>
    have hcount : (clear.length + 1) + n = (clear.length + n) + 1 := by omega
    have hclock : s.clock + (clear.length + 1) = s.clock + 1 + clear.length := by omega
    rw [List.length_cons, hclock, Nat.add_comm, ← State.polled_polled] at hrest
    have hone : s.canPoll 1 := hl.imp_right fun h => by rw [List.length_cons] at h; omega
    rw [List.length_cons, hcount]
    exact .of_clearPoll hs (hb b List.mem_cons_self) hone henv <|
      ih hs (fun b' hb' => hb b' (List.mem_cons_of_mem b hb')) (State.canPoll_polled hl) rfl hrest

/-- Acceptance and the clear polls after it, `poll_cnt` having started from 0 (R132, R136). -/
theorem Shows.of_readAcceptedAndClearPolls {clear : List Byte} (hs : s.st = .idle) (hi : s.initDone = true)
    (hb : ∀ b ∈ clear, dataReady c b = false)
    (hl : s.params.pollLimit = 0 ∨ clear.length < s.params.pollLimit.toNat)
    (henv : s.env = commandPins (readWord c) :: (clear.map answerReadPins ++ l))
    (hrest : Shows n { s with
      rspValid := false, chan := c, st := .rdPoll
      pollCnt := if s.params.pollLimit = 0 then 0 else BitVec.ofNat 32 clear.length
      env := l, clock := s.clock + 1 + clear.length } u tr) :
    Shows (clear.length + n + 1) s u
      { tr with requests := List.replicate (clear.length + 1) (readReq s.params 0x27) ++ tr.requests } := by
  rw [← BitVec.zero_add (BitVec.ofNat 32 clear.length)] at hrest
  exact .of_readAccepted hs hi henv <| .of_clearPolls rfl hb (hl.imp_right (Nat.zero_add _).trans_lt) rfl hrest

/-- A poll that finds the data-ready bit set goes on to the low byte (R133, R134). -/
theorem Shows.of_readyPoll {b : Byte} (hs : s.st = .rdPoll) (hb : dataReady s.chan b = true)
    (henv : s.env = answerReadPins b :: l)
    (hrest : Shows n { s with st := .rdOutL, env := l, clock := s.clock + 1 } u tr) :
    Shows (n + 1) s u { tr with requests := readReq s.params (outLAddr s.chan) :: tr.requests } := by
  have hnow := s.now_cons _ _ henv
  have hread : readStep s.chan s = { s with st := .rdOutL } := by
    rw [readStep_of_rdPoll rfl hs (by rw [hnow]; rfl), hnow]
    exact if_pos hb
  obtain ⟨hstep, ha⟩ := step_and_advances_of_readAnswered (.inl hs) henv hread rfl
  exact .request hstep ha rfl hrest

/-- The low byte goes on to the high byte (R134, R135). -/
theorem Shows.of_outLow {b : Byte} (hs : s.st = .rdOutL) (henv : s.env = answerReadPins b :: l)
    (hrest : Shows n { s with rawLo := b, st := .rdOutH, env := l, clock := s.clock + 1 } u tr) :
    Shows (n + 1) s u { tr with requests := readReq s.params (outHAddr s.chan) :: tr.requests } := by
  have hnow := s.now_cons _ _ henv
  have hread : readStep s.chan s = { s with rawLo := b, st := .rdOutH } := by
    rw [readStep_of_rdOutL rfl hs (by rw [hnow]; rfl), hnow]
    rfl
  obtain ⟨hstep, ha⟩ := step_and_advances_of_readAnswered (.inr (.inl hs)) henv hread rfl
  exact .request hstep ha rfl hrest

/-- The high byte goes on to the conversion, which issues no request (R135, R137). -/
theorem Shows.of_outHigh {b : Byte} (hs : s.st = .rdOutH) (henv : s.env = answerReadPins b :: l)
    (hrest : Shows n { s with raw := assembleHalf b s.rawLo, st := .rdConv, env := l, clock := s.clock + 1 } u tr) :
    Shows (n + 1) s u tr := by
  have hnow := s.now_cons _ _ henv
  have hread : readStep s.chan s = { s with raw := assembleHalf b s.rawLo, st := .rdConv } := by
    rw [readStep_of_rdOutH rfl hs (by rw [hnow]; rfl), hnow]
    rfl
  obtain ⟨hstep, ha⟩ := step_and_advances_of_readAnswered (.inr (.inr hs)) henv hread rfl
  exact .intoConversion hstep ha rfl hrest

/-- The conversion ends the reading (R139). -/
theorem Shows.of_conversion (hs : s.st = .rdConv) (henv : s.env = p :: l) (hr : p.rst = false) :
    Shows 1 s
      { responded s (readingResponse s.cal s.chan s.raw).1 (readingResponse s.cal s.chan s.raw).2 with
        ip := s.ipOutputs, fault := s.fault || decide (s.cal.x1 s.chan = s.cal.x0 s.chan)
        env := l, clock := s.clock + 1 }
      { requests := [], responses := [readingResponse s.cal s.chan s.raw] } := by
  have hr : s.now.rst = false := by rw [s.now_cons _ _ henv, hr]
  have hstep := step_of_inReading hr (by rw [hs]; rfl)
  rw [readStep_of_rdConv_eq_readingResponse hs] at hstep
  exact .response (hstep.trans (congrArg _ (tick_eq_of_env henv))) (advances_of_rdConv hr hs) rfl

/-- A clear poll at the limit ends the reading with TIMEOUT (R136, R205). -/
theorem Shows.of_lastPoll {b : Byte} (hs : s.st = .rdPoll) (hb : dataReady s.chan b = false)
    (hl : s.params.pollLimit ≠ 0) (hn : s.pollCnt.toNat + 1 = s.params.pollLimit.toNat)
    (henv : s.env = answerReadPins b :: l) :
    Shows 1 s { responded s 4 0 with env := l, clock := s.clock + 1 } { requests := [], responses := [(4, 0)] } := by
  have hnow := s.now_cons _ _ henv
  have hread : readStep s.chan s = responded s 4 0 := by
    rw [readStep_of_rdPoll rfl hs (by rw [hnow]; rfl), hnow, pollAgain_eq, if_neg hl, if_pos hn]
    exact if_neg (by simpa [answerReadPins] using hb)
  obtain ⟨hstep, ha⟩ := step_and_advances_of_readAnswered (.inl hs) henv hread rfl
  exact .response hstep ha rfl

end

/-- Settles O28: acceptance, the clear polls, the poll that finds the bit set, the two output bytes, the conversion. -/
theorem readingFollowsItsProtocol : Obligations.ReadingFollowsItsProtocol := by
  intro s c clear ready lo hi rest hs hinit hclear hready hl henv
  have hclock : s.clock + (clear.length + 5) = s.clock + 1 + clear.length + 1 + 1 + 1 + 1 := by omega
  have h := Shows.of_readAcceptedAndClearPolls hs hinit hclear hl henv <| .of_readyPoll rfl hready rfl <|
    .of_outLow rfl rfl <| .of_outHigh rfl rfl <| .of_conversion rfl rfl rfl
  rw [hclock]
  exact ⟨h.run, h.trace⟩

/-- Settles O29: acceptance, the clear polls below the limit, the clear poll at it. -/
theorem timeoutAtTheLimit : Obligations.TimeoutAtTheLimit := by
  intro s c clear rest hs hi hl hn hclear henv
  obtain rfl | ⟨polls, last, rfl⟩ := clear.eq_nil_or_concat'
  · exact absurd (BitVec.eq_of_toNat_eq hn.symm) hl
  rw [List.length_append, List.length_singleton] at hn ⊢
  rw [List.map_append, List.cons_append, List.append_assoc] at henv
  have hlt : s.params.pollLimit.toNat < 2 ^ 32 := s.params.pollLimit.isLt
  have hclock : s.clock + (polls.length + 1 + 1) = s.clock + 1 + polls.length + 1 := by omega
  have h := Shows.of_readAcceptedAndClearPolls hs hi (fun b hb => hclear b (List.mem_append_left _ hb))
    (.inr (by omega)) henv <| .of_lastPoll rfl (hclear last (by simp)) hl
      (by simp only [hl, if_false, BitVec.toNat_ofNat]; omega) rfl
  rw [if_neg hl] at h
  rw [hclock, Nat.add_sub_cancel]
  exact ⟨h.run, by simpa only [List.append_nil] using h.trace⟩

end Sys2Proof.Machine
end

section
/-! PROOFS. The Interpolator (R160 to R173): its result is the floor of an exact line over the rationals, clamped for
humidity; bounds, end points and monotonicity are read off the line. -/

namespace Sys2Proof.Machine

open Sys2Proof

/-! ## The operations -/

theorem exec_interpTemp (raw x0 x1 : Half) (y0 y1 : Code) (s : State) :
    exec (.interpTemp raw x0 x1 y0 y1) s = .next (s.driveIp (interp .temp raw x0 x1 y0 y1)) := rfl

theorem exec_interpHum (raw x0 x1 : Half) (y0 y1 : Code) (s : State) :
    exec (.interpHum raw x0 x1 y0 y1) s = .next (s.driveIp (interp .hum raw x0 x1 y0 y1)) := rfl

theorem readCode_temp (y : Code) : readCode .temp y = y.toNat := rfl

theorem readCode_hum (y : Code) : readCode .hum y = (y.toNat % 256 : Nat) := by
  simp [readCode]

/-- Settles O5: the datapath's parts, put together for operation 0, are R162's pseudocode. -/
theorem interpTempResult : Obligations.InterpTempResult := by
  intro raw x0 x1 y0 y1 s
  rw [exec_interpTemp]
  rfl

/-- Settles O6: the datapath's parts, put together for operation 1, are R163's pseudocode. -/
theorem interpHumResult : Obligations.InterpHumResult := by
  intro raw x0 x1 y0 y1 s
  rw [exec_interpHum, State.driveIp, interp, adder, multiplier, subtractorA, readCode_hum, readCode_hum]
  rfl

/-- Settles O12: the operation reads its codes through bits 7:0 alone. -/
theorem interpHumIgnoresHighCodeBits : Obligations.InterpHumIgnoresHighCodeBits := by
  intro raw x0 x1 y0 y1 y0' y1' s h0 h1
  have hr0 : readCode .hum y0 = readCode .hum y0' := by simp only [readCode, h0]
  have hr1 : readCode .hum y1 = readCode .hum y1' := by simp only [readCode, h1]
  simp only [exec_interpHum, interp, adder, multiplier, subtractorA, hr0, hr1]

/-- An operation drives the port with outputs that no state has a part in. -/
theorem exec_operation_drivesIp {raw x0 x1 : Half} {y0 y1 : Code} {i : Instr}
    (hi : i = .interpTemp raw x0 x1 y0 y1 ∨ i = .interpHum raw x0 x1 y0 y1) :
    ∃ out, ∀ s, exec i s = .next (s.driveIp out) := by
  obtain rfl | rfl := hi
  · exact ⟨_, exec_interpTemp raw x0 x1 y0 y1⟩
  · exact ⟨_, exec_interpHum raw x0 x1 y0 y1⟩

/-- Settles O13: from both states the port is driven with the same outputs, and nothing else is. -/
theorem interpolatorIsPure : Obligations.InterpolatorIsPure := by
  intro raw x0 x1 y0 y1 s s' t t' i hi ht ht'
  obtain ⟨out, hout⟩ := exec_operation_drivesIp hi
  obtain rfl := Host.Outcome.next.inj ((hout s).symm.trans ht)
  obtain rfl := Host.Outcome.next.inj ((hout s').symm.trans ht')
  exact ⟨rfl, rfl⟩

/-! ## The exact line -/

/-- Where a raw value lies on the line through the two points: 0 at `x0`, 1 at `x1`. -/
def position (raw x0 x1 : Half) : ℚ := subtractorB raw x0 / subtractorC x0 x1

/-- The result before rounding (R170): the line through `y0 k` at position 0 and `y1 k` at position 1. -/
def exactLine (op : Channel) (raw x0 x1 : Half) (y0 y1 : Code) : ℚ :=
  scale op * (readCode op y0 + subtractorA op y0 y1 * position raw x0 x1)

theorem subtractorC_eq_zero_iff (x0 x1 : Half) : subtractorC x0 x1 = 0 ↔ x1 = x0 := by
  rw [subtractorC, Int.sub_eq_zero, BitVec.toInt_inj]

section
variable {raw x0 x1 : Half} (hx : x1 ≠ x0)
include hx

theorem subtractorC_ne_zero : subtractorC x0 x1 ≠ 0 := (subtractorC_eq_zero_iff x0 x1).not.mpr hx

/-- The one rounding is the divider's, and `y0 k` is an integer (R166). -/
theorem adder_eq_floor (op : Channel) (y0 y1 : Code) :
    adder op raw x0 x1 y0 y1 = ⌊exactLine op raw x0 x1 y0 y1⌋ := by
  have hline : exactLine op raw x0 x1 y0 y1 = ((readCode op y0 * scale op : ℤ) : ℚ) +
      (multiplier op raw x0 y0 y1 : ℚ) / (subtractorC x0 x1 : ℚ) := by
    rw [exactLine, position, multiplier]; push_cast; ring
  rw [hline, Int.floor_intCast_add, adder, floordiv_eq_floor _ _ (subtractorC_ne_zero hx)]

/-! ## Bounds (R169) -/

/-- A raw value is at most 65535 calibration deltas past the first point; it is never 65535 before it, for only an
`x0` at an end of the range is 65535 away, and then `x1` lies on the raw value's side. -/
theorem position_bounds : -65534 ≤ position raw x0 x1 ∧ position raw x0 x1 ≤ 65535 := by
  have := raw.toInt_lt; have := raw.le_toInt
  have := x0.toInt_lt; have := x0.le_toInt
  have := x1.toInt_lt; have := x1.le_toInt
  have hc := subtractorC_ne_zero hx
  unfold position
  rcases lt_or_gt_of_ne hc with hneg | hpos
  · have hq : (subtractorC x0 x1 : ℚ) < 0 := by exact_mod_cast hneg
    rw [le_div_iff_of_neg hq, div_le_iff_of_neg hq]
    unfold subtractorB subtractorC at *
    constructor <;> norm_cast <;> omega
  · have hq : (0 : ℚ) < subtractorC x0 x1 := by exact_mod_cast hpos
    rw [le_div_iff₀ hq, div_le_iff₀ hq]
    unfold subtractorB subtractorC at *
    constructor <;> norm_cast <;> omega

end

theorem mul_bounds {a m u v : ℚ} (ha : 0 ≤ a) (ham : a ≤ m) (hu : 0 ≤ u) (huv : u ≤ v) :
    0 ≤ a * u ∧ a * u ≤ m * v :=
  ⟨mul_nonneg ha hu, mul_le_mul ham huv hu (ha.trans ham)⟩

/-- A line through two heights in `[0, m]`, followed at most `n` before the first point and `n + 1` past it. It is the
weighted sum `a (1 - t) + b t`, and the cases are the signs of the two weights. -/
theorem line_bounds {a b m n t : ℚ} (ha : 0 ≤ a) (ham : a ≤ m) (hb : 0 ≤ b) (hbm : b ≤ m)
    (hn : 0 ≤ n) (ht : -n ≤ t) (htn : t ≤ n + 1) :
    -(m * n) ≤ a + (b - a) * t ∧ a + (b - a) * t ≤ m * (n + 1) := by
  have hmn : 0 ≤ m * n := mul_nonneg (ha.trans ham) hn
  rcases le_total t 0 with h0 | h0
  · have hat := mul_bounds (u := 1 - t) (v := n + 1) ha ham (by linarith) (by linarith)
    have hbt := mul_bounds (u := -t) (v := n) hb hbm (by linarith) (by linarith)
    constructor <;> linarith
  rcases le_total t 1 with h1 | h1
  · have hat := mul_bounds ha ham (sub_nonneg.mpr h1) le_rfl
    have hbt := mul_bounds hb hbm h0 le_rfl
    constructor <;> linarith
  · have hat := mul_bounds (u := t - 1) (v := n) ha ham (by linarith) (by linarith)
    have hbt := mul_bounds hb hbm h0 htn
    constructor <;> linarith

/-- The largest code an operation reads (R161). -/
def codeMax : Channel → Int
  | .temp => 1023
  | .hum => 255

theorem readCode_bounds (op : Channel) (y : Code) : 0 ≤ readCode op y ∧ readCode op y ≤ codeMax op := by
  cases op with
  | temp => rw [readCode_temp, codeMax]; omega
  | hum => rw [readCode_hum, codeMax]; omega

theorem scale_pos (op : Channel) : 0 < scale op := by cases op <;> decide

theorem clamp_temp (r : Int) : clamp .temp r = r := rfl

theorem clamp_hum (r : Int) : clamp .hum r = min r 25600 := by
  change (if r > 25600 then 25600 else r) = min r 25600
  omega

theorem clamp_mono (op : Channel) {r r' : Int} (h : r ≤ r') : clamp op r ≤ clamp op r' := by
  cases op with
  | temp => exact h
  | hum => rw [clamp_hum, clamp_hum]; exact min_le_min_right _ h

section
variable {raw x0 x1 : Half} (hx : x1 ≠ x0)
include hx

theorem exactLine_bounds (op : Channel) (y0 y1 : Code) :
    scale op * -((codeMax op : ℚ) * 65534) ≤ exactLine op raw x0 x1 y0 y1 ∧
      exactLine op raw x0 x1 y0 y1 ≤ scale op * ((codeMax op : ℚ) * (65534 + 1)) := by
  obtain ⟨hp, hp'⟩ := position_bounds hx (raw := raw)
  obtain ⟨h0, h0'⟩ := readCode_bounds op y0
  obtain ⟨h1, h1'⟩ := readCode_bounds op y1
  have hk : (0 : ℚ) ≤ scale op := Int.cast_nonneg (scale_pos op).le
  obtain ⟨hlo, hhi⟩ := line_bounds (Int.cast_nonneg (R := ℚ) h0) (Int.cast_le.mpr h0') (Int.cast_nonneg h1)
    (Int.cast_le.mpr h1') (by norm_num) hp (by linarith)
  rw [exactLine, subtractorA, Int.cast_sub]
  exact ⟨mul_le_mul_of_nonneg_left hlo hk, mul_le_mul_of_nonneg_left hhi hk⟩

/-- The extremes R169 says are reached, for both operations: the largest code followed 65534 calibration deltas before
the first point, and 65535 past it. -/
theorem adder_bounds (op : Channel) (y0 y1 : Code) :
    scale op * -(codeMax op * 65534) ≤ adder op raw x0 x1 y0 y1 ∧
      adder op raw x0 x1 y0 y1 ≤ scale op * (codeMax op * (65534 + 1)) := by
  obtain ⟨hlo, hhi⟩ := exactLine_bounds hx op y0 y1 (raw := raw)
  rw [adder_eq_floor hx]
  exact ⟨Int.le_floor.mpr (by exact_mod_cast hlo), Int.cast_le.mp ((Int.floor_le _).trans (by exact_mod_cast hhi))⟩

/-- The output word holds the clamped result exactly (R169). -/
theorem interp_result_toInt (op : Channel) (y0 y1 : Code) :
    (interp op raw x0 x1 y0 y1).result.toInt = clamp op (adder op raw x0 x1 y0 y1) := by
  obtain ⟨hlo, hhi⟩ := adder_bounds hx op y0 y1 (raw := raw)
  rw [interp, if_neg (subtractorC_ne_zero hx)]
  refine BitVec.toInt_ofInt_eq_self (by decide) ?_ ?_ <;> cases op <;>
    simp only [clamp_temp, clamp_hum, codeMax, scale] at hlo hhi ⊢ <;> omega

theorem interp_result_eq_clamp_floor (op : Channel) (y0 y1 : Code) :
    (interp op raw x0 x1 y0 y1).result.toInt = clamp op ⌊exactLine op raw x0 x1 y0 y1⌋ := by
  rw [interp_result_toInt hx, adder_eq_floor hx]

theorem interp_dz_of_ne (op : Channel) (y0 y1 : Code) : (interp op raw x0 x1 y0 y1).dz = false := by
  rw [interp_dz, decide_eq_false hx]

end

/-- Settles O9, by `adder_bounds` for each operation; the extremes are reached by evaluation. -/
theorem interpolatorNeverOverflows : Obligations.InterpolatorNeverOverflows := by
  refine ⟨fun raw x0 x1 y0 y1 hx => ?_, by decide, by decide, by decide, by decide⟩
  obtain ⟨htlo, hthi⟩ := adder_bounds hx .temp y0 y1 (raw := raw)
  obtain ⟨hhlo, hhhi⟩ := adder_bounds hx .hum y0 y1 (raw := raw)
  exact ⟨htlo, hthi, hhlo, hhhi, fun op => interp_result_toInt hx op y0 y1⟩

/-! ## The source's formula (R170) -/

theorem exactLine_temp (raw x0 x1 : Half) (y0 y1 : Code) :
    exactLine .temp raw x0 x1 y0 y1 = formula256 8 raw x0 x1 y0.toNat y1.toNat := by
  simp only [exactLine, position, formula256, subtractorA, subtractorB, subtractorC, readCode_temp, scale]
  push_cast
  ring

theorem exactLine_hum (raw x0 x1 : Half) (y0 y1 : Code) :
    exactLine .hum raw x0 x1 y0 y1 = formula256 2 raw x0 x1 (y0.toNat % 256) (y1.toNat % 256) := by
  simp only [exactLine, position, formula256, subtractorA, subtractorB, subtractorC, readCode_hum, scale]
  rw [Int.cast_sub, Int.cast_natCast, Int.cast_natCast]
  push_cast
  ring

/-- Settles O7: the exact line is the source's formula, and the output word is its floor. -/
theorem interpTempIsFlooredFormula : Obligations.InterpTempIsFlooredFormula := by
  intro raw x0 x1 y0 y1 s t hx ht
  obtain rfl := Host.Outcome.next.inj ((exec_interpTemp ..).symm.trans ht)
  refine ⟨interp_dz_of_ne hx .temp y0 y1, ?_⟩
  rw [← exactLine_temp]
  exact interp_result_eq_clamp_floor hx .temp y0 y1

/-- Settles O8: the exact line is the source's formula, and the output word is its floor, clamped. -/
theorem interpHumIsClampedFlooredFormula : Obligations.InterpHumIsClampedFlooredFormula := by
  intro raw x0 x1 y0 y1 s t hx ht
  obtain rfl := Host.Outcome.next.inj ((exec_interpHum ..).symm.trans ht)
  refine ⟨interp_dz_of_ne hx .hum y0 y1, ?_⟩
  rw [← exactLine_hum, ← clamp_hum]
  exact interp_result_eq_clamp_floor hx .hum y0 y1

/-! ## End points and slopes (R172, R173) -/

section
variable (op : Channel) (x0 x1 : Half) (y0 y1 : Code)

theorem exactLine_first : exactLine op x0 x0 x1 y0 y1 = (readCode op y0 * scale op : ℤ) := by
  have h : position x0 x0 x1 = 0 := by simp [position, subtractorB]
  rw [exactLine, h]; push_cast; ring

theorem exactLine_second {x0 x1 : Half} (hx : x1 ≠ x0) :
    exactLine op x1 x0 x1 y0 y1 = (readCode op y1 * scale op : ℤ) := by
  have h : position x1 x0 x1 = 1 := div_self (Int.cast_ne_zero.mpr (subtractorC_ne_zero hx))
  rw [exactLine, h, subtractorA]; push_cast; ring

theorem exactLine_level (raw : Half) : exactLine op raw x0 x1 y0 y0 = (readCode op y0 * scale op : ℤ) := by
  rw [exactLine, subtractorA]; push_cast; ring

end

/-- Settles O10: at the points, and along a level line, the exact line is an integer, so nothing is rounded. -/
theorem interpolatorPassesThroughItsPoints : Obligations.InterpolatorPassesThroughItsPoints := by
  intro op raw x0 x1 y0 y1 hx
  simp only [adder_eq_floor hx, exactLine_first, exactLine_second op y0 y1 hx, exactLine_level, Int.floor_intCast,
    and_self]

/-- Between two raw values in order the exact line rises by a non-negative multiple of the slope `dy dxc`. -/
theorem exactLine_rise (op : Channel) {raw raw' x0 x1 : Half} (y0 y1 : Code) (hx : x1 ≠ x0)
    (hraw : raw.toInt ≤ raw'.toInt) :
    ∃ c : ℚ, 0 ≤ c ∧ exactLine op raw' x0 x1 y0 y1 =
      exactLine op raw x0 x1 y0 y1 + (subtractorA op y0 y1 * subtractorC x0 x1 : ℤ) * c := by
  have hc : (subtractorC x0 x1 : ℚ) ≠ 0 := Int.cast_ne_zero.mpr (subtractorC_ne_zero hx)
  have hk : (0 : ℚ) ≤ scale op := by exact_mod_cast (scale_pos op).le
  have hd : (0 : ℚ) ≤ (raw'.toInt - raw.toInt : ℤ) := by exact_mod_cast Int.sub_nonneg.mpr hraw
  refine ⟨scale op * (raw'.toInt - raw.toInt : ℤ) / (subtractorC x0 x1 : ℚ) ^ 2, by positivity, ?_⟩
  simp only [exactLine, position, subtractorB]
  push_cast
  field_simp
  ring

/-- Settles O11: the exact line is monotone by its slope, and floor and clamp are monotone. -/
theorem interpolatorIsMonotoneInRaw : Obligations.InterpolatorIsMonotoneInRaw := by
  intro op raw raw' x0 x1 y0 y1 hx hraw
  obtain ⟨c, hc, hrise⟩ := exactLine_rise op y0 y1 hx hraw
  simp only [interp_result_eq_clamp_floor hx, hrise]
  refine ⟨fun hs => ?_, fun hs => ?_, fun hs => ?_⟩
  · have hs : (0 : ℚ) ≤ (subtractorA op y0 y1 * subtractorC x0 x1 : ℤ) := Int.cast_nonneg hs.le
    exact clamp_mono op (Int.floor_le_floor (le_add_of_nonneg_right (mul_nonneg hs hc)))
  · have hs : ((subtractorA op y0 y1 * subtractorC x0 x1 : ℤ) : ℚ) ≤ 0 := Int.cast_nonpos.mpr hs.le
    exact clamp_mono op (Int.floor_le_floor (add_le_of_nonpos_right (mul_nonpos_of_nonpos_of_nonneg hs hc)))
  · rw [hs, zero_mul, Int.cast_zero, zero_mul, add_zero]

end Sys2Proof.Machine
end

section
/-! PROOFS. Errors (R200): error entry as one whole-state equation. -/

namespace Sys2Proof.Machine

open Sys2Proof

/-- An error that records a fault writes the response registers and sets `fault` (R200, R204). -/
theorem raiseError_eq_responded_with_fault (s : State) {c : Status} (hc : c.recordsFault = true) :
    s.raiseError c = { responded s c.code 0 with fault := true } := by
  rw [State.raiseError, respond_eq_responded, hc, Bool.or_true]

/-- Settles O46: DIV_ZERO is the code that records a fault; every other one writes the response registers alone. -/
theorem errorEntry : Obligations.ErrorEntry := by
  intro s code _
  by_cases hz : code = .divZero
  · rw [raiseError_eq_responded_with_fault s (code.recordsFault_iff.mpr hz), if_pos hz]
    rfl
  · have hc : code.recordsFault = false := Bool.eq_false_iff.mpr (mt code.recordsFault_iff.mp hz)
    rw [raiseError_eq_responded s hc, if_neg hz]
    rfl

end Sys2Proof.Machine
end

section
/-! PROOFS. Reset (R230, R243): the outputs after it, the encodings that act as it, and the invariant at its state. -/

namespace Sys2Proof.Machine

open Sys2Proof

/-- R230's sentence on the outputs: after reset the Host port is ready, with no response, no fault and no BEGIN done. -/
@[simp] theorem State.resetStep_hostOut (s : State) : s.resetStep.hostOut =
    { cmdReady := true, rspValid := false, rspStatus := 0, rspData := 0, initialized := false, fault := false } := rfl

@[simp] theorem State.resetStep_busReqValid (s : State) : s.resetStep.busReqValid = false := rfl

@[simp] theorem State.tick_hostOut (s : State) : s.tick.hostOut = s.hostOut := rfl

@[simp] theorem State.tick_busReqValid (s : State) : s.tick.busReqValid = s.busReqValid := rfl

/-- Settles O35: `rst` = 1 fetches reset whatever else is presented, and time passing writes no field of the table. -/
theorem resetWins : Obligations.ResetWins := by
  intro s h
  refine ⟨s.resetStep.tick, step_of_reset (fetch_reset h), ?_⟩
  simp [CalibrationSet.zero]

/-- R83 leaves the encodings 0x9 to 0xF unused. -/
theorem St.isUnused_iff_code (q : St) : q.isUnused = true ↔ 9 ≤ q.code.toNat := by
  cases q with
  | unused k =>
    simp only [St.isUnused, St.code, BitVec.toNat_ofNat, true_iff]
    omega
  | _ => simp [St.isUnused, St.code]

/-- Settles O37: an unused encoding fetches reset, as a raised `rst` does. -/
theorem unusedEncodingActsAsReset : Obligations.UnusedEncodingActsAsReset := by
  intro s hu
  exact ⟨step_of_reset ((fetch_eq_reset_iff s).mpr (.inr hu)), s.st.isUnused_iff_code.mp hu⟩

/-- The reset state is its own reset: what a reset step keeps (parameters, inputs, clock) has its reset value there. -/
theorem State.resetStep_reset : State.reset.resetStep = State.reset := rfl

/-- Settles O51: the reset state is its own reset, and reset gives the invariant from every state. -/
theorem resetMeetsInvariant : Obligations.ResetMeetsInvariant := by
  unfold Obligations.ResetMeetsInvariant
  rw [← State.resetStep_reset]
  exact .resetStep State.reset

end Sys2Proof.Machine
end
